-- ==== Sys2Proof/Word.lean ====
section
/-! DEFINITION. The word types of PQC-CORE (spec/00_scope.md R9): bytes, 32-bit words and 64-bit Keccak lanes. -/

namespace Sys2Proof

/-- Eight bits (R9). -/
abbrev Byte := BitVec 8

/-- `UInt32` of the spec: a register, a command word or a stored coefficient (R9, R36). -/
abbrev Word := BitVec 32

/-- `UInt64` of the spec: one lane of the Keccak state (R9, R31). -/
abbrev Lane := BitVec 64

end Sys2Proof
end

