-- ==== Sys2Proof/Config.lean ====
section
/-! DEFINITION. What an implementation fixes (spec/00_scope.md R8, R15), and the value that the spec leaves free
(spec/70_reset_and_hazards.md R350). -/

namespace Sys2Proof

/-- The parameters of R8 that a model takes as arguments. `LATENCY` is not among them: it is the place of the
core's move in `State.env` (log 3). -/
structure Config where
  /-- `NP`, the number of polynomial registers (R8, R36). -/
  np : Nat
  /-- `BUF_BYTES`, the size of the data buffer (R8, R37). -/
  bufBytes : Nat
  /-- `CORE_BASE`, the bus address of the window, OPEN in the spec (R8, R80). -/
  coreBase : Nat
deriving DecidableEq, Repr

/-- The defaults of R8. DESIGN CHOICE (log 2): the base address 0, which the spec leaves OPEN. -/
def Config.default : Config := { np := 16, bufBytes := 16384, coreBase := 0 }

/-- The legal ranges of R8. -/
abbrev Config.legal (c : Config) : Prop :=
  1 ≤ c.np ∧ c.np ≤ 16 ∧ c.bufBytes % 4 = 0 ∧ 1024 ≤ c.bufBytes ∧ c.bufBytes ≤ 16384 ∧ c.coreBase % 65536 = 0

/-- The value that the n-th disallowed read returns (R350: "any value, a free choice of the model at that step ...
not necessarily the same on two reads"). It has no body: nothing can be proved about it (log 5). -/
opaque Config.freeRead : Nat → Word

end Sys2Proof
end

