-- ==== Sys2Proof/Syntax.lean ====
section
/-! DEFINITION. The commands of PQC-CORE (spec/30_encoding.md R118): one constructor for each row of the opcode
table, with its operands as names. -/

namespace Sys2Proof

/-- The ring that RG selects (R110, R112). -/
inductive Ring where
  /-- RG = 0, q = 3329. -/
  | kyber
  /-- RG = 1, q = 8380417. -/
  | dilithium
deriving DecidableEq, Repr

/-- The SHAKE variant, IMM8 of SINIT (R115, R171). -/
inductive Variant where
  /-- IMM8 = 0, rate 168. -/
  | shake128
  /-- IMM8 = 1, rate 136. -/
  | shake256
deriving DecidableEq, Repr

/-- The centered-binomial parameter, IMM8 of CBD (R115, R271). -/
inductive Eta where
  | two
  | three
deriving DecidableEq, Repr

/-- A polynomial register number, a 4-bit field (R114). Whether the register exists is checked against `NP`. -/
abbrev PReg := Fin 16

/-- The nineteen commands (R118). -/
inductive Instr where
  | kperm
  | kzero
  | sinit (v : Variant)
  | sabsorb
  | sfinal (ds : Byte)
  | ssqueeze
  | montr
  | fqmul
  | bred
  | dred
  | dcsub
  | pload (rg : Ring) (rd : PReg)
  | pstore (rs1 : PReg)
  | ntt (rg : Ring) (rd rs1 : PReg)
  | intt (rg : Ring) (rd rs1 : PReg)
  | pmul (rg : Ring) (rd rs1 rs2 : PReg)
  | pmac (rg : Ring) (rd rs1 rs2 : PReg)
  | cbd (rd : PReg) (eta : Eta)
  | wipe
deriving DecidableEq, Repr

end Sys2Proof
end

