-- ==== Sys2Proof/WellFormed.lean ====
section
/-! DEFINITION. When a command is well formed: every register field it uses names an existing register
(spec/30_encoding.md R114, R117 check 4). The other checks of R117 are held by the types of the operands. -/

namespace Sys2Proof

/-- The polynomial registers a command names (R118, columns RD, RS1 and RS2). -/
def Instr.regs : Instr → List PReg
  | .kperm => []
  | .kzero => []
  | .sinit _ => []
  | .sabsorb => []
  | .sfinal _ => []
  | .ssqueeze => []
  | .montr => []
  | .fqmul => []
  | .bred => []
  | .dred => []
  | .dcsub => []
  | .pload _ rd => [rd]
  | .pstore rs1 => [rs1]
  | .ntt _ rd rs1 => [rd, rs1]
  | .intt _ rd rs1 => [rd, rs1]
  | .pmul _ rd rs1 rs2 => [rd, rs1, rs2]
  | .pmac _ rd rs1 rs2 => [rd, rs1, rs2]
  | .cbd rd _ => [rd]
  | .wipe => []

/-- Every register the command names is below `NP` (R114, R117 check 4). -/
def Instr.wellFormed (np : Nat) (i : Instr) : Bool := i.regs.all fun r => decide (r.val < np)

end Sys2Proof
end

