-- ==== Sys2Proof/Decode.lean ====
section
/-! DEFINITION. Decoding and encoding a command word (spec/30_encoding.md R110 to R120): total, in the order of the
checks of R117. A word that decodes to nothing is an illegal word (R119). -/

namespace Sys2Proof

/-- `w[lo+len-1 : lo]` as a number (R9). -/
def field (w : Word) (lo len : Nat) : Nat := (w.extractLsb' lo len).toNat

/-- Bits 31:24 (R110). -/
def opField (w : Word) : Nat := field w 24 8
/-- Bit 23 (R110). -/
def rgField (w : Word) : Nat := field w 23 1
/-- Bits 22:20 (R110). -/
def rsvField (w : Word) : Nat := field w 20 3
/-- Bits 19:16 (R110). -/
def rdField (w : Word) : Nat := field w 16 4
/-- Bits 15:12 (R110). -/
def rs1Field (w : Word) : Nat := field w 12 4
/-- Bits 11:8 (R110). -/
def rs2Field (w : Word) : Nat := field w 8 4
/-- Bits 7:0 (R110). -/
def immField (w : Word) : Nat := field w 0 8

/-- The ring that RG names (R112). -/
def ringOf (w : Word) : Ring := if rgField w = 0 then .kyber else .dilithium

/-- A 4-bit field as a register number (R114). -/
def regOf (n : Nat) : PReg := Fin.ofNat 16 n

/-- The instruction `i` if `ok`, nothing otherwise. -/
def orIllegal (ok : Bool) (i : Instr) : Option Instr := if ok then some i else none

/-- Check 3 of R117 for a row of R118 whose five fields RG, RD, RS1, RS2 and IMM8 are all marked `0`. -/
def bareWord (w : Word) : Bool :=
  rgField w == 0 && rdField w == 0 && rs1Field w == 0 && rs2Field w == 0 && immField w == 0

/-- SINIT: IMM8 names the variant, 0 or 1 (R115, R117 check 5). -/
def decodeSinit (w : Word) : Option Instr :=
  if rgField w == 0 && rdField w == 0 && rs1Field w == 0 && rs2Field w == 0 then
    match immField w with
    | 0 => some (.sinit .shake128)
    | 1 => some (.sinit .shake256)
    | _ => none
  else none

/-- CBD: IMM8 is the parameter, 2 or 3 (R115, R117 check 5). -/
def decodeCbd (w : Word) : Option Instr :=
  if rgField w == 0 && rs1Field w == 0 && rs2Field w == 0 then
    match immField w with
    | 2 => some (.cbd (regOf (rdField w)) .two)
    | 3 => some (.cbd (regOf (rdField w)) .three)
    | _ => none
  else none

/-- The opcode map of R118, with checks 1, 3 and 5 of R117. -/
def decodeOp (w : Word) : Option Instr :=
  match opField w with
  | 0x10 => orIllegal (bareWord w) .kperm
  | 0x11 => orIllegal (bareWord w) .kzero
  | 0x20 => decodeSinit w
  | 0x21 => orIllegal (bareWord w) .sabsorb
  | 0x22 => orIllegal (rgField w == 0 && rdField w == 0 && rs1Field w == 0 && rs2Field w == 0) (.sfinal (BitVec.ofNat 8 (immField w)))
  | 0x23 => orIllegal (bareWord w) .ssqueeze
  | 0x30 => orIllegal (bareWord w) .montr
  | 0x31 => orIllegal (bareWord w) .fqmul
  | 0x32 => orIllegal (bareWord w) .bred
  | 0x33 => orIllegal (bareWord w) .dred
  | 0x34 => orIllegal (bareWord w) .dcsub
  | 0x40 => orIllegal (rs1Field w == 0 && rs2Field w == 0 && immField w == 0) (.pload (ringOf w) (regOf (rdField w)))
  | 0x41 => orIllegal (rgField w == 0 && rdField w == 0 && rs2Field w == 0 && immField w == 0) (.pstore (regOf (rs1Field w)))
  | 0x42 => orIllegal (rs2Field w == 0 && immField w == 0) (.ntt (ringOf w) (regOf (rdField w)) (regOf (rs1Field w)))
  | 0x43 => orIllegal (rs2Field w == 0 && immField w == 0) (.intt (ringOf w) (regOf (rdField w)) (regOf (rs1Field w)))
  | 0x44 => orIllegal (immField w == 0) (.pmul (ringOf w) (regOf (rdField w)) (regOf (rs1Field w)) (regOf (rs2Field w)))
  | 0x45 => orIllegal (immField w == 0) (.pmac (ringOf w) (regOf (rdField w)) (regOf (rs1Field w)) (regOf (rs2Field w)))
  | 0x50 => decodeCbd w
  | 0xF0 => orIllegal (bareWord w) .wipe
  | _ => none

/-- The decoder (R117): RSV must be 0 (R113), the opcode's row must accept the word, and every register named must be
below `np`. `none` is E_ILLEGAL; all the checks give that one code (R307), so their order does not show. -/
def decode (np : Nat) (w : Word) : Option Instr :=
  if rsvField w = 0 then (decodeOp w).filter (Instr.wellFormed np) else none

/-- The encoding formula of R120: `OP << 24 | RG << 23 | RD << 16 | RS1 << 12 | RS2 << 8 | IMM8`. -/
def encodeFields (op rg rd rs1 rs2 imm : Nat) : Word :=
  BitVec.ofNat 32 (op * 0x1000000 + rg * 0x800000 + rd * 0x10000 + rs1 * 0x1000 + rs2 * 0x100 + imm)

/-- RG of a ring (R112). -/
def Ring.code : Ring → Nat
  | .kyber => 0
  | .dilithium => 1

/-- IMM8 of a variant (R171). -/
def Variant.code : Variant → Nat
  | .shake128 => 0
  | .shake256 => 1

/-- IMM8 of a sampler parameter (R271). -/
def Eta.code : Eta → Nat
  | .two => 2
  | .three => 3

/-- The word of a command (R118, R120). -/
def encode : Instr → Word
  | .kperm => encodeFields 0x10 0 0 0 0 0
  | .kzero => encodeFields 0x11 0 0 0 0 0
  | .sinit v => encodeFields 0x20 0 0 0 0 v.code
  | .sabsorb => encodeFields 0x21 0 0 0 0 0
  | .sfinal ds => encodeFields 0x22 0 0 0 0 ds.toNat
  | .ssqueeze => encodeFields 0x23 0 0 0 0 0
  | .montr => encodeFields 0x30 0 0 0 0 0
  | .fqmul => encodeFields 0x31 0 0 0 0 0
  | .bred => encodeFields 0x32 0 0 0 0 0
  | .dred => encodeFields 0x33 0 0 0 0 0
  | .dcsub => encodeFields 0x34 0 0 0 0 0
  | .pload rg rd => encodeFields 0x40 rg.code rd.val 0 0 0
  | .pstore rs1 => encodeFields 0x41 0 0 rs1.val 0 0
  | .ntt rg rd rs1 => encodeFields 0x42 rg.code rd.val rs1.val 0 0
  | .intt rg rd rs1 => encodeFields 0x43 rg.code rd.val rs1.val 0 0
  | .pmul rg rd rs1 rs2 => encodeFields 0x44 rg.code rd.val rs1.val rs2.val 0
  | .pmac rg rd rs1 rs2 => encodeFields 0x45 rg.code rd.val rs1.val rs2.val 0
  | .cbd rd eta => encodeFields 0x50 0 rd.val 0 0 eta.code
  | .wipe => encodeFields 0xF0 0 0 0 0 0

/-- A row of spec/opcode_table.json: the match and mask form of R118. -/
structure OpRow where
  mnemonic : String
  pattern : Word
  mask : Word
deriving DecidableEq, Repr

/-- spec/opcode_table.json, row by row. -/
def opcodeTable : List OpRow :=
  [⟨"KPERM", 0x10000000, 0xFFFFFFFF⟩, ⟨"KZERO", 0x11000000, 0xFFFFFFFF⟩, ⟨"SINIT", 0x20000000, 0xFFFFFFFE⟩,
   ⟨"SABSORB", 0x21000000, 0xFFFFFFFF⟩, ⟨"SFINAL", 0x22000000, 0xFFFFFF00⟩, ⟨"SSQUEEZE", 0x23000000, 0xFFFFFFFF⟩] ++
  [⟨"MONTR", 0x30000000, 0xFFFFFFFF⟩, ⟨"FQMUL", 0x31000000, 0xFFFFFFFF⟩, ⟨"BRED", 0x32000000, 0xFFFFFFFF⟩,
   ⟨"DRED", 0x33000000, 0xFFFFFFFF⟩, ⟨"DCSUB", 0x34000000, 0xFFFFFFFF⟩] ++
  [⟨"PLOAD", 0x40000000, 0xFF70FFFF⟩, ⟨"PSTORE", 0x41000000, 0xFFFF0FFF⟩, ⟨"NTT", 0x42000000, 0xFF700FFF⟩,
   ⟨"INTT", 0x43000000, 0xFF700FFF⟩, ⟨"PMUL", 0x44000000, 0xFF7000FF⟩, ⟨"PMAC", 0x45000000, 0xFF7000FF⟩] ++
  [⟨"CBD", 0x50000002, 0xFFF0FFFE⟩, ⟨"WIPE", 0xF0000000, 0xFFFFFFFF⟩]

/-- The word is of the row (R118: "w & mask(c) = match(c)"). -/
def OpRow.matches (r : OpRow) (w : Word) : Bool := w &&& r.mask == r.pattern

/-- The mnemonic of a command (R118). -/
def Instr.mnemonic : Instr → String
  | .kperm => "KPERM"
  | .kzero => "KZERO"
  | .sinit _ => "SINIT"
  | .sabsorb => "SABSORB"
  | .sfinal _ => "SFINAL"
  | .ssqueeze => "SSQUEEZE"
  | .montr => "MONTR"
  | .fqmul => "FQMUL"
  | .bred => "BRED"
  | .dred => "DRED"
  | .dcsub => "DCSUB"
  | .pload _ _ => "PLOAD"
  | .pstore _ => "PSTORE"
  | .ntt _ _ _ => "NTT"
  | .intt _ _ _ => "INTT"
  | .pmul _ _ _ _ => "PMUL"
  | .pmac _ _ _ _ => "PMAC"
  | .cbd _ _ => "CBD"
  | .wipe => "WIPE"

/-- The decoder on an instruction's bits as spec/opcode_table.json numbers them (every row has one 32-bit word), at
the default `NP` of R8. -/
def decodeTableWord (nbits w : Nat) : Option Instr :=
  decode Config.default.np (BitVec.ofNat 32 (w % 2 ^ nbits))

end Sys2Proof
end

