-- ==== Sys2Proof/Machine/State.lean ====
section
/-! DEFINITION. The state of PQC-CORE (spec/10_state.md R30 to R51), the steps of the outside world it still has to
see, the reasons a step can stop, and the state after reset (R50). -/

namespace Sys2Proof.Machine

/-- `KS`: 25 lanes, lane (x, y) at index x + 5y (R31). -/
abbrev KeccakState := Vector Lane 25

/-- One polynomial register: 256 coefficients of 32 bits (R36). -/
abbrev PolyReg := Vector Word 256

/-- `BUF` (R37): the bytes that are not 0, in strictly rising order of address. An address that is not listed reads 0,
the value R50 gives every byte at reset. -/
abbrev Memory := List Host.Cell

/-- What can make a step end without a next state, or be the answer to a host access. -/
inductive Fault where
  /-- `HOST_BUS_ERROR` (R84, R314). Raised by `busAccess` as the block's answer to one malformed host access; the host
  step records it in `State.resp` and the block goes on, so no step of this machine ends in it. Safe. -/
  | hostBusError
deriving DecidableEq, Repr

/-- Reasons to give an instruction no meaning. -/
inductive Refusal where
  /-- Raised by an arm of `exec` for an instruction that has no meaning yet. No arm raises it. Safe. -/
  | notModelled (mnemonic : String)
deriving DecidableEq, Repr

/-- The error codes of a command (R305). The code 0, NONE, is never raised. -/
inductive Err where
  /-- `E_ILLEGAL`: the word fails a decode check. -/
  | illegal
  /-- `E_SEQ`: a sponge command in the wrong phase. -/
  | seq
  /-- `E_BOUNDS`: a buffer access out of range. -/
  | bounds
  /-- `E_RANGE`: an input value outside the command's domain. -/
  | range
deriving DecidableEq, Repr

/-- One access of the host's bus: a bus address, a size in bytes and, for a write, the data, whose low bytes count
(R82, R83). -/
inductive Access where
  | read (addr size : Nat)
  | write (addr size : Nat) (data : Word)
deriving DecidableEq, Repr

/-- What the bus answers to an access. -/
inductive Response where
  /-- A read: its bytes, zero-extended. -/
  | data (v : Word)
  /-- A write that the block took, whether it had an effect, was ignored (R85) or was dropped (R350). -/
  | ack
  /-- The access returns a fault value to the host (R314). -/
  | fault (f : Fault)
deriving DecidableEq, Repr

/-- One step of the outside world, or the word that the core moves now (R15, R90, R340). -/
inductive Event where
  /-- A host step: one access (R89). -/
  | host (a : Access)
  /-- The platform asserts power-on reset (R340). -/
  | powerOnReset
  /-- The core takes its step; with nothing in flight it does nothing (R90, R320). -/
  | core
deriving DecidableEq, Repr

/-- Everything the spec gives the machine (R30), the configuration (R8), and the model's own `env`, `resp` and
`freeCount`. -/
structure State where
  /-- `NP`, `BUF_BYTES`, `CORE_BASE` (R8, R15). No step changes it. -/
  cfg : Config
  /-- The Keccak state (R31). -/
  ks : KeccakState
  /-- `SP_PHASE` (R33): 0 IDLE, 1 ABSORB, 2 SQUEEZE. -/
  spPhase : BitVec 2
  /-- `SP_RATE` (R34). -/
  spRate : BitVec 8
  /-- `SP_POS` (R35). -/
  spPos : BitVec 8
  /-- The polynomial register file (R36); the registers from `NP` on do not exist and hold 0. -/
  p : Vector PolyReg 16
  /-- The data buffer (R37). -/
  buf : Memory
  /-- `ARG0`, a byte address (R38). -/
  arg0 : Word
  /-- `ARG1`, a byte length (R38). -/
  arg1 : Word
  /-- `ARG2`, a scalar operand (R38). -/
  arg2 : Word
  /-- `ARG3`, a scalar operand (R38). -/
  arg3 : Word
  /-- `RES`, the canonical result (R39). -/
  res : Word
  /-- `RES2`, the raw or intermediate result (R39). -/
  res2 : Word
  /-- `CTRL.IE` (R41). -/
  ie : Bool
  /-- `STATUS.BUSY` (R42, R46). -/
  busy : Bool
  /-- `STATUS.DONE` (R42). -/
  done : Bool
  /-- `STATUS.ERR` (R42). -/
  err : Bool
  /-- `STATUS.HZ` (R42). -/
  hz : Bool
  /-- `STATUS.ERRCODE` (R42, R305). -/
  errcode : BitVec 4
  /-- The CMD readback (R43). -/
  cmd : Word
  /-- `CUR`, the command in flight, 0 when there is none (R46). -/
  cur : Word
  /-- The model's own: the steps of the outside world to come, in order (log 3). -/
  env : List Event
  /-- The model's own: the bus's answer to the latest host access (log 6). -/
  resp : Option Response
  /-- The model's own: how many free values have been used (log 5). -/
  freeCount : Nat
deriving DecidableEq, Repr

/-- The machine right after reset (R50), with the default configuration (R8) and nothing scheduled. DESIGN CHOICE
(logs 2, 3, 5, 6): `cfg.coreBase`, `env`, `resp` and `freeCount`. -/
def State.reset : State :=
  { cfg := Config.default
    ks := Vector.replicate 25 0
    spPhase := 0
    spRate := 0
    spPos := 0
    p := Vector.replicate 16 (Vector.replicate 256 0)
    buf := []
    arg0 := 0
    arg1 := 0
    arg2 := 0
    arg3 := 0
    res := 0
    res2 := 0
    ie := false
    busy := false
    done := false
    err := false
    hz := false
    errcode := 0
    cmd := 0
    cur := 0
    env := []
    resp := none
    freeCount := 0 }

end Sys2Proof.Machine
end

