-- ==== Sys2Proof/Machine/Tables.lean ====
section
/-! DEFINITION. The fixed parameters and constant tables of PQC-CORE: spec/00_scope.md R7 and R8,
spec/40_permutation.md R142 and R145, spec/43_polynomial.md R231 to R234. -/

namespace Sys2Proof.Machine

/-- `QK`, the Kyber modulus (R7). -/
def qKyber : Nat := 3329

/-- `QD`, the Dilithium modulus (R7). -/
def qDilithium : Nat := 8380417

/-- `QINV` = -q^-1 mod 2^16 (R8, R207). -/
def qInv : Nat := 3327

/-- `BARRETT_V` = round(2^26 / 3329) (R8, R208). -/
def barrettV : Nat := 20159

/-- q(RG) (R112). -/
def ringQ : Ring → Nat
  | .kyber => qKyber
  | .dilithium => qDilithium

/-- The rate of a variant in bytes: `RATE128` = 168, `RATE256` = 136 (R7, R171). -/
def variantRate : Variant → BitVec 8
  | .shake128 => 168
  | .shake256 => 136

/-- η of a sampler parameter (R271). -/
def etaVal : Eta → Nat
  | .two => 2
  | .three => 3

/-- `ID` (R40). -/
def idValue : Word := 0x50430700

/-- `PAD_LAST` (R7, R173). -/
def padLast : Byte := 0x80

/-- The rotation offsets of R142, `RHO[x][y]` at index x + 5y (a column of the rule's table is a row here). -/
def rhoTable : List Nat :=
  [0, 1, 62, 28, 27] ++ [36, 44, 6, 55, 20] ++ [3, 10, 43, 25, 39] ++ [41, 45, 15, 21, 8] ++ [18, 2, 61, 56, 14]

/-- `RHO[x][y]` (R142). -/
def rho (x y : Nat) : Nat := rhoTable.getD (x + 5 * y) 0

/-- The 24 round constants (R145). -/
def rcTable : List Lane :=
  [0x0000000000000001, 0x0000000000008082, 0x800000000000808A, 0x8000000080008000, 0x000000000000808B, 0x0000000080000001] ++
  [0x8000000080008081, 0x8000000000008009, 0x000000000000008A, 0x0000000000000088, 0x0000000080008009, 0x000000008000000A] ++
  [0x000000008000808B, 0x800000000000008B, 0x8000000000008089, 0x8000000000008003, 0x8000000000008002, 0x8000000000000080] ++
  [0x000000000000800A, 0x800000008000000A, 0x8000000080008081, 0x8000000000008080, 0x0000000080000001, 0x8000000080008008]

/-- `RC[ir]` (R145). -/
def roundConstant (ir : Nat) : Lane := rcTable.getD ir 0

/-- The low `bits` bits of `k` in reverse order: `brv7` and `brv8` of R231. -/
def bitRev : Nat → Nat → Nat
  | 0, _ => 0
  | bits + 1, k => (k % 2) * 2 ^ bits + bitRev bits (k / 2)

/-- `ZK[k] = 17^brv7(k) mod 3329` (R232). -/
def zetaKyber (k : Nat) : Nat := 17 ^ bitRev 7 k % qKyber

/-- `GK[i] = 17^(2·brv7(i) + 1) mod 3329` (R233). -/
def gammaKyber (i : Nat) : Nat := 17 ^ (2 * bitRev 7 i + 1) % qKyber

/-- `ZD[k] = 1753^brv8(k) mod 8380417` (R234). -/
def zetaDilithium (k : Nat) : Nat := 1753 ^ bitRev 8 k % qDilithium

/-- The n^-1 constant of a ring: 3303 = 128^-1 and 8347681 = 256^-1 (R231). -/
def nInv : Ring → Nat
  | .kyber => 3303
  | .dilithium => 8347681

end Sys2Proof.Machine
end

