-- ==== Sys2Proof/Machine/Flags.lean ====
section
/-! DEFINITION. The status and control registers (spec/10_state.md R40 to R49): the words the host reads, the bits it
writes, and the bits that accepting and completing a command write (spec/60_exceptions.md R301 to R304). The block has
no other flag (R48): no command sets a carry, overflow or zero flag. -/

namespace Sys2Proof.Machine

/-- The value of an error code (R305). -/
def Err.code : Err → BitVec 4
  | .illegal => 1
  | .seq => 2
  | .bounds => 3
  | .range => 4

/-- `SP_PHASE` = IDLE (R33). -/
def phaseIdle : BitVec 2 := 0
/-- `SP_PHASE` = ABSORB (R33). -/
def phaseAbsorb : BitVec 2 := 1
/-- `SP_PHASE` = SQUEEZE (R33). -/
def phaseSqueeze : BitVec 2 := 2

/-- The word a read of STATUS returns: BUSY, DONE, ERR, HZ in bits 0 to 3, ERRCODE in bits 11:8, 0 elsewhere (R42). -/
def statusWord (s : State) : Word :=
  BitVec.ofNat 32 (s.busy.toNat + 2 * s.done.toNat + 4 * s.err.toNat + 8 * s.hz.toNat + 256 * s.errcode.toNat)

/-- The word a read of CTRL returns: IE in bit 0, 0 elsewhere (R41). -/
def ctrlWord (s : State) : Word := BitVec.ofNat 32 s.ie.toNat

/-- The word a read of SPONGE returns (R44). -/
def spongeWord (s : State) : Word :=
  BitVec.ofNat 32 (s.spPos.toNat + 0x100 * s.spRate.toNat + 0x10000 * s.spPhase.toNat)

/-- The interrupt output (R49): CTRL.IE and STATUS.DONE. -/
def irq (s : State) : Bool := s.ie && s.done

/-- The completion step of every command (R301): BUSY, DONE and CUR. -/
def State.complete (s : State) : State := { s with busy := false, done := true, cur := 0 }

/-- What a failed command adds to its completion (R302): ERR is set and ERRCODE holds the code. -/
def State.report (e : Err) (s : State) : State := { s with err := true, errcode := e.code }

/-- Accepting the command word `w` (R90): CUR and the readback hold it, BUSY is set and DONE cleared; ERR, ERRCODE
and HZ stay (R303). -/
def State.accept (w : Word) (s : State) : State := { s with cur := w, cmd := w, busy := true, done := false }

/-- A disallowed access while BUSY = 1 sets HZ (R304, R350). -/
def State.setHz (s : State) : State := { s with hz := true }

/-- A host write to STATUS (R303): bit 1 clears DONE, bit 2 clears ERR and ERRCODE, bit 3 clears HZ; nothing else is
writable. -/
def State.clearStatus (v : Word) (s : State) : State :=
  { s with
    done := s.done && !v.getLsbD 1
    err := s.err && !v.getLsbD 2
    errcode := if v.getLsbD 2 then 0 else s.errcode
    hz := s.hz && !v.getLsbD 3 }

/-- Either reset (R340, R341): every piece of state takes its value of R50. The configuration, and the model's own
list of what the outside world does next, answer to the host and counter of free values, are no state of the block
(log 14). -/
def State.blockReset (s : State) : State :=
  { State.reset with cfg := s.cfg, env := s.env, resp := s.resp, freeCount := s.freeCount }

/-- A host write to CTRL (R41, R342): SRST resets, and the reset wins over the IE bit of the same write. -/
def State.writeCtrl (v : Word) (s : State) : State :=
  if v.getLsbD 1 then s.blockReset else { s with ie := v.getLsbD 0 }

end Sys2Proof.Machine
end

