-- ==== Sys2Proof/Machine/Ops.lean ====
section
/-! DEFINITION. The shared operations: bytes of the buffer, polynomial registers, lanes and bytes of the Keccak state
(spec/00_scope.md R11), and how a command ends (spec/60_exceptions.md R300 to R306). -/

namespace Sys2Proof.Machine

/-! ## Little-endian bytes (R11, R86) -/

/-- The little-endian value of a byte sequence, the first byte least significant. -/
def leNat : List Byte → Nat
  | [] => 0
  | b :: bs => b.toNat + 256 * leNat bs

/-- `LE32(bytes)` (R11), and the value of a shorter sequence, zero-extended. -/
def leWord (bs : List Byte) : Word := BitVec.ofNat 32 (leNat bs)

/-- The low `n` bytes of a word, least significant first; `LE32bytes(w)` for n = 4 (R11, R83). -/
def leBytes (n : Nat) (w : Word) : List Byte := (List.range n).map fun k => BitVec.ofNat 8 (w.toNat / 2 ^ (8 * k))

/-! ## The data buffer (R37, R87, R88) -/

/-- The canonical form of a memory: addresses strictly rising, no byte equal to what an unlisted address reads as. -/
abbrev Memory.wf (m : Memory) : Prop := m.Pairwise (fun c d => c.1 < d.1) ∧ ∀ c ∈ m, c.2 ≠ 0

/-- Every listed byte exists: its address is below `size` (R37). -/
abbrev Memory.below (m : Memory) (size : Nat) : Prop := ∀ c ∈ m, c.1 < size

/-- The byte at an address; an unlisted byte is 0 (R50). -/
def Memory.byte (m : Memory) (a : Nat) : Byte :=
  match m with
  | [] => 0
  | (x, b) :: t => if x = a then b else Memory.byte t a

/-- `MemRead(a, n)` (R11): the n bytes from address a on, in rising order of address (R87). -/
def Memory.read (m : Memory) (a n : Nat) : List Byte := (List.range n).map fun k => Memory.byte m (a + k)

/-- The bytes of a sequence that are not 0, with their addresses from `a` on. -/
def cells (a : Nat) : List Byte → Memory
  | [] => []
  | b :: bs => if b = 0 then cells (a + 1) bs else (a, b) :: cells (a + 1) bs

/-- `MemWrite(a, n, bytes)` (R11): the bytes from address a on become `bs`, every other byte stays. -/
def Memory.write (m : Memory) (a : Nat) (bs : List Byte) : Memory :=
  m.filter (fun c => decide (c.1 < a)) ++ cells a bs ++ m.filter (fun c => decide (a + bs.length ≤ c.1))

/-- `InBounds(a, n)` (R88), on mathematical integers. -/
def inBounds (c : Config) (a n : Nat) : Bool := decide (a + n ≤ c.bufBytes)

/-! ## Polynomial registers (R11, R36) -/

/-- Coefficient i of a polynomial (R11). -/
def coef (f : PolyReg) (i : Nat) : Word := f.toList.getD i 0

/-- The polynomial with coefficients `g 0` to `g 255`. -/
def mkPoly (g : Nat → Word) : PolyReg := ⟨⟨(List.range 256).map g⟩, by simp⟩

/-- The zero polynomial. -/
def zeroPoly : PolyReg := Vector.replicate 256 0

/-- Reading `P[r]` (R11). -/
def State.readP (s : State) (r : PReg) : PolyReg := s.p[r.val]

/-- `P[r] <- f`: all 256 coefficients at once (R11). -/
def State.writeP (r : PReg) (f : PolyReg) (s : State) : State := { s with p := s.p.set r.val f r.isLt }

/-- `Canon(f, q)` (R231): every coefficient is below q. -/
def canon (f : PolyReg) (q : Nat) : Bool := f.toList.all fun c => decide (c.toNat < q)

/-! ## The Keccak state (R11, R31, R32) -/

/-- Lane i of a Keccak state, `KS[i]` (R11). -/
def lane (A : KeccakState) (i : Nat) : Lane := A.toList.getD i 0

/-- The Keccak state with lanes `g 0` to `g 24`. -/
def mkLanes (g : Nat → Lane) : KeccakState := ⟨⟨(List.range 25).map g⟩, by simp⟩

/-- The all-zero Keccak state. -/
def zeroLanes : KeccakState := Vector.replicate 25 0

/-- `StateByte(i)` for i below 200 (R11, R32). There is no byte from 200 on; no reachable state asks for one (log 10). -/
def stateByte (A : KeccakState) (i : Nat) : Byte := BitVec.ofNat 8 ((lane A (i / 8)).toNat / 2 ^ (8 * (i % 8)))

/-- `XorStateByte(i, b)` for i below 200 (R11, R32): no other byte changes. -/
def xorStateByte (A : KeccakState) (i : Nat) (b : Byte) : KeccakState :=
  mkLanes fun k => if k = i / 8 then lane A k ^^^ (b.setWidth 64 <<< (8 * (i % 8))) else lane A k

/-! ## How a command ends (R300 to R306) -/

/-- `raise e` (R11): the command ends in failure. This is the block's whole exception entry (R301, R302, R311): BUSY,
DONE, CUR, ERR and ERRCODE; nothing else changes (R306) and there is nothing to return from (R312). -/
def State.fail (e : Err) (s : State) : State := (s.report e).complete

/-- Performing a command on `s` (R90, R300): `body` is the state with the results written, or the error raised. The
error is reported on the state as it was before the command (R306). -/
def perform (s : State) (body : Except Err State) : Host.Outcome State Fault Refusal :=
  .next (match body with
    | .ok t => t.complete
    | .error e => s.fail e)

end Sys2Proof.Machine
end

