-- ==== Sys2Proof/Machine/Keccak.lean ====
section
/-! DEFINITION. The Keccak-f[1600] permutation and the commands KPERM and KZERO (spec/40_permutation.md). -/

namespace Sys2Proof.Machine

/-- `A[x, y]`, with x and y taken mod 5 (R140). -/
def laneXY (A : KeccakState) (x y : Nat) : Lane := lane A (x % 5 + 5 * (y % 5))

/-- The Keccak state with lane `g x y` at (x, y) (R31). -/
def mkLanesXY (g : Nat → Nat → Lane) : KeccakState := mkLanes fun i => g (i % 5) (i / 5)

/-- `C[x]`, the parity of column x (R141). -/
def thetaC (A : KeccakState) (x : Nat) : Lane :=
  laneXY A x 0 ^^^ laneXY A x 1 ^^^ laneXY A x 2 ^^^ laneXY A x 3 ^^^ laneXY A x 4

/-- `D[x] = C[x-1] ^ rotl64(C[x+1], 1)` (R141); x + 4 is x - 1 mod 5. -/
def thetaD (A : KeccakState) (x : Nat) : Lane := thetaC A (x + 4) ^^^ (thetaC A (x + 1)).rotateLeft 1

/-- θ (R141). -/
def theta (A : KeccakState) : KeccakState := mkLanesXY fun x y => laneXY A x y ^^^ thetaD A x

/-- ρ (R142). -/
def rhoStep (A : KeccakState) : KeccakState := mkLanesXY fun x y => (laneXY A x y).rotateLeft (rho x y)

/-- π (R143), in the form that reads the source lane of (x, y). -/
def piStep (A : KeccakState) : KeccakState := mkLanesXY fun x y => laneXY A (x + 3 * y) x

/-- χ (R144). -/
def chi (A : KeccakState) : KeccakState :=
  mkLanesXY fun x y => laneXY A x y ^^^ (~~~ laneXY A (x + 1) y &&& laneXY A (x + 2) y)

/-- ι (R145). -/
def iota (A : KeccakState) (ir : Nat) : KeccakState :=
  mkLanes fun i => if i = 0 then lane A 0 ^^^ roundConstant ir else lane A i

/-- One round (R140). -/
def keccakRound (A : KeccakState) (ir : Nat) : KeccakState := iota (chi (piStep (rhoStep (theta A)))) ir

/-- `KeccakF(A)`: the rounds 0 to 23 in order (R140). -/
def keccakF (A : KeccakState) : KeccakState := (List.range 24).foldl keccakRound A

/-- KPERM (R148): the sponge registers do not change, in any phase. -/
def execKperm (s : State) : Host.Outcome State Fault Refusal :=
  perform s (.ok { s with ks := keccakF s.ks })

/-- KZERO (R149): the Keccak state and the sponge registers are cleared. -/
def execKzero (s : State) : Host.Outcome State Fault Refusal :=
  perform s (.ok { s with ks := zeroLanes, spPhase := phaseIdle, spRate := 0, spPos := 0 })

end Sys2Proof.Machine
end

