-- ==== Sys2Proof/Machine/Operands.lean ====
section
/-! DEFINITION. The operand forms: how a command reads the ARG registers (spec/30_encoding.md R116) and the
two's-complement readings of spec/00_scope.md R10. -/

namespace Sys2Proof.Machine

/-- `a = u32(ARG0)`, a byte address of the buffer (R116). -/
def argAddress (s : State) : Nat := s.arg0.toNat

/-- `n = u32(ARG1)`, a byte length (R116). -/
def argLength (s : State) : Nat := s.arg1.toNat

/-- `u32(v)` (R10). -/
def u32 (v : Word) : Nat := v.toNat

/-- `s32(v)` (R10). -/
def s32 (v : Word) : Int := v.toInt

/-- `s16(v[15:0])` (R10): the upper half is ignored. -/
def s16 (v : Word) : Int := (v.setWidth 16).toInt

/-- `s64(hi ‖ lo)` (R10, R86): `lo` is the low word. -/
def s64 (hi lo : Word) : Int := (hi ++ lo).toInt

/-- A mathematical integer as a 32-bit two's-complement word (R200, R206). -/
def sext32 (v : Int) : Word := BitVec.ofInt 32 v

end Sys2Proof.Machine
end

