-- ==== Sys2Proof/Machine/ModArith.lean ====
section
/-! DEFINITION. The scalar commands MONTR, FQMUL, BRED, DRED, DCSUB (spec/42_modarith.md). Every intermediate is an
exact integer (R206). -/

namespace Sys2Proof.Machine

/-- RES and RES2 receive the two results; nothing else is written (R200). -/
def State.writeRes (res res2 : Word) (s : State) : State := { s with res := res, res2 := res2 }

/-- `u <- (u32(a) * 3327) mod 2^16` (R201). -/
def montU (a : Int) : Int := a % 0x100000000 * qInv % 0x10000

/-- `a' <- (a + u * 3329) >> 16` (R201); the shift is floor division (R10). -/
def montRaw (a : Int) : Int := (a + montU a * qKyber) / 0x10000

/-- MONTR's results for the 32-bit value a (R201). -/
def State.montgomery (a : Int) (s : State) : State :=
  s.writeRes (BitVec.ofInt 32 (montRaw a % qKyber)) (sext32 (montRaw a))

/-- MONTR (R201). -/
def execMontr (s : State) : Host.Outcome State Fault Refusal := perform s (.ok (s.montgomery (s32 s.arg2)))

/-- FQMUL (R202): the product is exact. -/
def execFqmul (s : State) : Host.Outcome State Fault Refusal :=
  perform s (.ok (s.montgomery (s16 s.arg2 * s16 s.arg3)))

/-- `t <- (20159 * a + 2^25) >> 26` (R203). -/
def barrettT (a : Int) : Int := (barrettV * a + 0x2000000) / 0x4000000

/-- `r <- a - t * 3329`, the centred remainder (R203). -/
def barrettR (a : Int) : Int := a - barrettT a * qKyber

/-- BRED (R203). -/
def execBred (s : State) : Host.Outcome State Fault Refusal :=
  let r := barrettR (s16 s.arg2)
  perform s (.ok (s.writeRes (BitVec.ofInt 32 (r + if r < 0 then (qKyber : Int) else 0)) (sext32 r)))

/-- DRED (R204): the Euclidean remainder. -/
def execDred (s : State) : Host.Outcome State Fault Refusal :=
  perform s (.ok (s.writeRes (BitVec.ofInt 32 (s64 s.arg3 s.arg2 % qDilithium)) 0))

/-- DCSUB (R205): E_RANGE from 2q on; else subtract q under the mask. -/
def execDcsub (s : State) : Host.Outcome State Fault Refusal :=
  let a := u32 s.arg2
  let m : Word := if qDilithium ≤ a then 0xFFFFFFFF else 0
  perform s
    (if 2 * qDilithium ≤ a then .error .range
     else .ok (s.writeRes (s.arg2 - (BitVec.ofNat 32 qDilithium &&& m)) 0))

end Sys2Proof.Machine
end

