-- ==== Sys2Proof/Machine/PolyRing.lean ====
section
/-! DEFINITION. The transforms and products of the polynomial ring as pure functions (spec/43_polynomial.md R235 to
R240), with exact FIPS values and no Montgomery factor (R248). -/

namespace Sys2Proof.Machine

/-- `(a + b) mod q`. -/
def addMod (q : Nat) (a b : Word) : Word := BitVec.ofNat 32 ((a.toNat + b.toNat) % q)

/-- `(a - b) mod q`, the Euclidean remainder (R10). -/
def subMod (q : Nat) (a b : Word) : Word := BitVec.ofInt 32 (((a.toNat : Int) - (b.toNat : Int)) % (q : Int))

/-- `(z * a) mod q`. -/
def mulMod (q : Nat) (z : Nat) (a : Word) : Word := BitVec.ofNat 32 (z * a.toNat % q)

/-- One layer of Cooley-Tukey butterflies (the loops over `start` and `j` of R235 and R237), written coefficient by
coefficient: the pairs (j, j + len) of a layer are disjoint, so each result depends on the layer's input alone
(log 11). Block b of the layer with length len takes zeta number 128 / len + b: the counter of the pseudocode has
passed 1 + 2 + 4 + ... = 128 / len - 1 blocks before this layer. -/
def ctLayer (q : Nat) (zeta : Nat → Nat) (f : PolyReg) (len : Nat) : PolyReg :=
  mkPoly fun j =>
    let z := zeta (128 / len + j / (2 * len))
    if j % (2 * len) < len then addMod q (coef f j) (mulMod q z (coef f (j + len)))
    else subMod q (coef f (j - len)) (mulMod q z (coef f j))

/-- One layer of Kyber's Gentleman-Sande butterflies (the loops over `start` and `j` of R236), written as `ctLayer`
is. The zeta number counts down: block b of the layer with length len takes number 2 * (128 / len) - 1 - b. -/
def gsLayerK (f : PolyReg) (len : Nat) : PolyReg :=
  mkPoly fun j =>
    let z := zetaKyber (2 * (128 / len) - 1 - j / (2 * len))
    if j % (2 * len) < len then addMod qKyber (coef f j) (coef f (j + len))
    else mulMod qKyber z (subMod qKyber (coef f j) (coef f (j - len)))

/-- One layer of Dilithium's Gentleman-Sande butterflies (the loops over `start` and `j` of R238): the zetas are
negated and the difference is taken the other way round. -/
def gsLayerD (w : PolyReg) (len : Nat) : PolyReg :=
  mkPoly fun j =>
    let z := (qDilithium - zetaDilithium (2 * (128 / len) - 1 - j / (2 * len))) % qDilithium
    if j % (2 * len) < len then addMod qDilithium (coef w j) (coef w (j + len))
    else mulMod qDilithium z (subMod qDilithium (coef w (j - len)) (coef w j))

/-- The multiplication of every coefficient by a constant that ends an inverse transform (R236, R238). -/
def scalePoly (q c : Nat) (f : PolyReg) : PolyReg := mkPoly fun j => mulMod q c (coef f j)

/-- `NTT_K(f)` (R235). -/
def nttK (f : PolyReg) : PolyReg := [128, 64, 32, 16, 8, 4, 2].foldl (ctLayer qKyber zetaKyber) f

/-- `INTT_K(f)` (R236). -/
def inttK (f : PolyReg) : PolyReg :=
  scalePoly qKyber (nInv .kyber) ([2, 4, 8, 16, 32, 64, 128].foldl gsLayerK f)

/-- `NTT_D(w)` (R237). -/
def nttD (w : PolyReg) : PolyReg := [128, 64, 32, 16, 8, 4, 2, 1].foldl (ctLayer qDilithium zetaDilithium) w

/-- `INTT_D(w)` (R238). -/
def inttD (w : PolyReg) : PolyReg :=
  scalePoly qDilithium (nInv .dilithium) ([1, 2, 4, 8, 16, 32, 64, 128].foldl gsLayerD w)

/-- `MUL_K(a, b)` (R239): 128 products modulo X^2 - GK[i]. -/
def mulK (a b : PolyReg) : PolyReg :=
  mkPoly fun j =>
    let i := j / 2
    let a0 := (coef a (2 * i)).toNat
    let a1 := (coef a (2 * i + 1)).toNat
    let b0 := (coef b (2 * i)).toNat
    let b1 := (coef b (2 * i + 1)).toNat
    if j % 2 = 0 then BitVec.ofNat 32 ((a0 * b0 + a1 * b1 * gammaKyber i) % qKyber)
    else BitVec.ofNat 32 ((a0 * b1 + a1 * b0) % qKyber)

/-- `MUL_D(a, b)` (R240). -/
def mulD (a b : PolyReg) : PolyReg := mkPoly fun i => mulMod qDilithium (coef a i).toNat (coef b i)

/-- `NTT(RG, f)`. -/
def nttRing : Ring → PolyReg → PolyReg
  | .kyber => nttK
  | .dilithium => nttD

/-- `INTT(RG, f)`. -/
def inttRing : Ring → PolyReg → PolyReg
  | .kyber => inttK
  | .dilithium => inttD

/-- `MUL(RG, a, b)`. -/
def mulRing : Ring → PolyReg → PolyReg → PolyReg
  | .kyber => mulK
  | .dilithium => mulD

/-- The coefficient-wise sum mod q(RG) that ends PMAC (R246). -/
def addRing (rg : Ring) (c h : PolyReg) : PolyReg := mkPoly fun i => addMod (ringQ rg) (coef c i) (coef h i)

end Sys2Proof.Machine
end

