-- ==== Sys2Proof/Machine/Polynomial.lean ====
section
/-! DEFINITION. The commands PLOAD, PSTORE, NTT, INTT, PMUL, PMAC (spec/43_polynomial.md R241 to R246). Every source is
read before the destination is written (R230). -/

namespace Sys2Proof.Machine

/-- The polynomial serialised at address a: coefficient i is `LE32` of the bytes 4i to 4i + 3 (R231). -/
def loadPoly (m : Memory) (a : Nat) : PolyReg := mkPoly fun i => leWord (m.read (a + 4 * i) 4)

/-- The 1024 bytes of a polynomial (R231). -/
def polyBytes (f : PolyReg) : List Byte := f.toList.flatMap (leBytes 4)

/-- PLOAD (R241): E_BOUNDS before E_RANGE. -/
def execPload (rg : Ring) (rd : PReg) (s : State) : Host.Outcome State Fault Refusal :=
  let g := loadPoly s.buf (argAddress s)
  perform s
    (if !inBounds s.cfg (argAddress s) 1024 then .error .bounds
     else if !canon g (ringQ rg) then .error .range
     else .ok (s.writeP rd g))

/-- PSTORE (R242). -/
def execPstore (rs1 : PReg) (s : State) : Host.Outcome State Fault Refusal :=
  perform s
    (if !inBounds s.cfg (argAddress s) 1024 then .error .bounds
     else .ok { s with buf := s.buf.write (argAddress s) (polyBytes (s.readP rs1)) })

/-- NTT (R243). -/
def execNtt (rg : Ring) (rd rs1 : PReg) (s : State) : Host.Outcome State Fault Refusal :=
  perform s
    (if !canon (s.readP rs1) (ringQ rg) then .error .range
     else .ok (s.writeP rd (nttRing rg (s.readP rs1))))

/-- INTT (R244). -/
def execIntt (rg : Ring) (rd rs1 : PReg) (s : State) : Host.Outcome State Fault Refusal :=
  perform s
    (if !canon (s.readP rs1) (ringQ rg) then .error .range
     else .ok (s.writeP rd (inttRing rg (s.readP rs1))))

/-- PMUL (R245). -/
def execPmul (rg : Ring) (rd rs1 rs2 : PReg) (s : State) : Host.Outcome State Fault Refusal :=
  perform s
    (if !(canon (s.readP rs1) (ringQ rg) && canon (s.readP rs2) (ringQ rg)) then .error .range
     else .ok (s.writeP rd (mulRing rg (s.readP rs1) (s.readP rs2))))

/-- PMAC (R246): the destination is a source, its old value. -/
def execPmac (rg : Ring) (rd rs1 rs2 : PReg) (s : State) : Host.Outcome State Fault Refusal :=
  perform s
    (if !(canon (s.readP rd) (ringQ rg) && canon (s.readP rs1) (ringQ rg) && canon (s.readP rs2) (ringQ rg)) then
      .error .range
     else .ok (s.writeP rd (addRing rg (s.readP rd) (mulRing rg (s.readP rs1) (s.readP rs2)))))

end Sys2Proof.Machine
end

