-- ==== Sys2Proof/Machine/Sampler.lean ====
section
/-! DEFINITION. The centered-binomial sampler CBD (spec/44_sampler.md). -/

namespace Sys2Proof.Machine

/-- `bit(k)` of a byte sequence, least significant bit of each byte first (R270). -/
def streamBit (bs : List Byte) (k : Nat) : Nat := (bs.getD (k / 8) 0).toNat / 2 ^ (k % 8) % 2

/-- The sum of the η bits from bit k on (R270). -/
def bitSum (bs : List Byte) (k eta : Nat) : Nat := ((List.range eta).map fun j => streamBit bs (k + j)).sum

/-- Coefficient i is (x - y) mod 3329, with x the sum of η bits from 2iη on and y of the next η (R270). -/
def cbdPoly (eta : Nat) (bs : List Byte) : PolyReg :=
  mkPoly fun i =>
    let x := bitSum bs (2 * i * eta) eta
    let y := bitSum bs (2 * i * eta + eta) eta
    BitVec.ofInt 32 (((x : Int) - (y : Int)) % (qKyber : Int))

/-- CBD (R271): 64 η bytes of the buffer. -/
def execCbd (rd : PReg) (eta : Eta) (s : State) : Host.Outcome State Fault Refusal :=
  perform s
    (if !inBounds s.cfg (argAddress s) (64 * etaVal eta) then .error .bounds
     else .ok (s.writeP rd (cbdPoly (etaVal eta) (s.buf.read (argAddress s) (64 * etaVal eta)))))

end Sys2Proof.Machine
end

