-- ==== Sys2Proof/Machine/Sponge.lean ====
section
/-! DEFINITION. The SHAKE sponge controller: SINIT, SABSORB, SFINAL, SSQUEEZE (spec/41_sponge.md). -/

namespace Sys2Proof.Machine

/-- What a sponge command carries from byte to byte: the Keccak state, the position, and the number of permutations
performed so far, which R177 counts and no register holds. -/
structure SpongeRun where
  ks : KeccakState
  pos : BitVec 8
  perms : Nat
deriving DecidableEq, Repr

/-- `KS <- KeccakF(KS); SP_POS <- 0` (R172, R174). -/
def SpongeRun.permute (r : SpongeRun) : SpongeRun := { ks := keccakF r.ks, pos := 0, perms := r.perms + 1 }

/-- One turn of SABSORB's loop (R172): XOR the byte in, and permute at once when the block is full. -/
def absorbByte (rate : BitVec 8) (r : SpongeRun) (b : Byte) : SpongeRun :=
  let r' := { r with ks := xorStateByte r.ks r.pos.toNat b, pos := r.pos + 1 }
  if r'.pos = rate then r'.permute else r'

/-- SABSORB's loop (R172). -/
def absorb (rate : BitVec 8) (r : SpongeRun) (bs : List Byte) : SpongeRun := bs.foldl (absorbByte rate) r

/-- Permute when the block is used up (R174). -/
def SpongeRun.refill (rate : BitVec 8) (r : SpongeRun) : SpongeRun := if r.pos = rate then r.permute else r

/-- SSQUEEZE's loop (R174): the n bytes it writes, and what it leaves. -/
def squeeze (rate : BitVec 8) : Nat → SpongeRun → List Byte × SpongeRun
  | 0, r => ([], r)
  | n + 1, r =>
    let r' := r.refill rate
    let rest := squeeze rate n { r' with pos := r'.pos + 1 }
    (stateByte r'.ks r'.pos.toNat :: rest.1, rest.2)

/-- The sponge registers as a run starts from them. -/
def State.spongeRun (s : State) : SpongeRun := { ks := s.ks, pos := s.spPos, perms := 0 }

/-- SINIT (R171): legal in every phase. -/
def execSinit (v : Variant) (s : State) : Host.Outcome State Fault Refusal :=
  perform s (.ok { s with ks := zeroLanes, spRate := variantRate v, spPos := 0, spPhase := phaseAbsorb })

/-- SABSORB (R172): E_SEQ before E_BOUNDS. -/
def execSabsorb (s : State) : Host.Outcome State Fault Refusal :=
  perform s
    (if s.spPhase ≠ phaseAbsorb then .error .seq
     else if !inBounds s.cfg (argAddress s) (argLength s) then .error .bounds
     else
      let r := absorb s.spRate s.spongeRun (s.buf.read (argAddress s) (argLength s))
      .ok { s with ks := r.ks, spPos := r.pos })

/-- The Keccak state after padding (R173): the domain-separator byte at the position, then 0x80 into the last byte of
the rate; the two may be one byte. -/
def padState (ks : KeccakState) (pos rate : BitVec 8) (ds : Byte) : KeccakState :=
  xorStateByte (xorStateByte ks pos.toNat ds) (rate - 1).toNat padLast

/-- SFINAL (R173): any domain-separator byte. -/
def execSfinal (ds : Byte) (s : State) : Host.Outcome State Fault Refusal :=
  perform s
    (if s.spPhase ≠ phaseAbsorb then .error .seq
     else .ok { s with
      ks := keccakF (padState s.ks s.spPos s.spRate ds)
      spPos := 0
      spPhase := phaseSqueeze })

/-- SSQUEEZE (R174): E_SEQ before E_BOUNDS. -/
def execSsqueeze (s : State) : Host.Outcome State Fault Refusal :=
  perform s
    (if s.spPhase ≠ phaseSqueeze then .error .seq
     else if !inBounds s.cfg (argAddress s) (argLength s) then .error .bounds
     else
      let out := squeeze s.spRate (argLength s) s.spongeRun
      .ok { s with ks := out.2.ks, spPos := out.2.pos, buf := s.buf.write (argAddress s) out.1 })

end Sys2Proof.Machine
end

