-- ==== Sys2Proof/Machine/System.lean ====
section
/-! DEFINITION. The system command WIPE (spec/45_system.md). -/

namespace Sys2Proof.Machine

/-- WIPE (R290): every storage element that can hold secret-derived data becomes zero; ERR, ERRCODE, HZ, IE and the
CMD readback are kept. -/
def execWipe (s : State) : Host.Outcome State Fault Refusal :=
  perform s (.ok { s with
    ks := zeroLanes
    spPhase := phaseIdle
    spRate := 0
    spPos := 0
    p := Vector.replicate 16 zeroPoly
    buf := []
    arg0 := 0
    arg1 := 0
    arg2 := 0
    arg3 := 0
    res := 0
    res2 := 0 })

end Sys2Proof.Machine
end

