-- ==== Sys2Proof/Machine/Dispatch.lean ====
section
/-! DEFINITION. Which meaning each command has. -/

namespace Sys2Proof.Machine

def exec (i : Instr) (s : State) : Host.Outcome State Fault Refusal :=
  match i with
  | .kperm => Sys2Proof.Machine.execKperm s
  | .kzero => Sys2Proof.Machine.execKzero s
  | .sinit v => Sys2Proof.Machine.execSinit v s
  | .sabsorb => Sys2Proof.Machine.execSabsorb s
  | .sfinal ds => Sys2Proof.Machine.execSfinal ds s
  | .ssqueeze => Sys2Proof.Machine.execSsqueeze s
  | .montr => Sys2Proof.Machine.execMontr s
  | .fqmul => Sys2Proof.Machine.execFqmul s
  | .bred => Sys2Proof.Machine.execBred s
  | .dred => Sys2Proof.Machine.execDred s
  | .dcsub => Sys2Proof.Machine.execDcsub s
  | .pload rg rd => Sys2Proof.Machine.execPload rg rd s
  | .pstore rs1 => Sys2Proof.Machine.execPstore rs1 s
  | .ntt rg rd rs1 => Sys2Proof.Machine.execNtt rg rd rs1 s
  | .intt rg rd rs1 => Sys2Proof.Machine.execIntt rg rd rs1 s
  | .pmul rg rd rs1 rs2 => Sys2Proof.Machine.execPmul rg rd rs1 rs2 s
  | .pmac rg rd rs1 rs2 => Sys2Proof.Machine.execPmac rg rd rs1 rs2 s
  | .cbd rd eta => Sys2Proof.Machine.execCbd rd eta s
  | .wipe => Sys2Proof.Machine.execWipe s

end Sys2Proof.Machine
end

