-- ==== Sys2Proof/Machine/HostPort.lean ====
section
/-! DEFINITION. The host's side of the block: the window map, the access rules and rights, and what each register does
when it is read or written (spec/20_memory.md R80 to R91, spec/10_state.md R40 to R51,
spec/70_reset_and_hazards.md R350). -/

namespace Sys2Proof.Machine

/-- What stands at an offset of the window (R51, R81). -/
inductive Target where
  | id
  | ctrl
  | status
  | cmd
  | arg0
  | arg1
  | arg2
  | arg3
  | res
  | res2
  | sponge
  /-- `KSL[i]`, bits 31:0 of lane i (R45). -/
  | ksl (i : Nat)
  /-- `KSH[i]`, bits 63:32 of lane i (R45). -/
  | ksh (i : Nat)
  /-- Byte a of BUF (R37). -/
  | buf (a : Nat)
  /-- A reserved offset (R85). -/
  | reserved
deriving DecidableEq, Repr

/-- The offset of a bus address in the window of 64 KiB at CORE_BASE (R80); nothing outside it reaches the block
(log 7). -/
def windowOffset (c : Config) (addr : Nat) : Option Nat :=
  if c.coreBase ≤ addr ∧ addr < c.coreBase + 65536 then some (addr - c.coreBase) else none

/-- The access rules (R82, R83): 32-bit accesses at multiples of 4 below 0x8000; naturally aligned 8-, 16- and 32-bit
accesses from there on. Any other size breaks them (log 8). -/
def accessOk (off size : Nat) : Bool :=
  if off < 0x8000 then size == 4 && off % 4 == 0
  else (size == 1 || size == 2 || size == 4) && off % size == 0

/-- The control registers by offset (R51). -/
def controlRegister (off : Nat) : Target :=
  match off with
  | 0x000 => .id
  | 0x004 => .ctrl
  | 0x008 => .status
  | 0x00C => .cmd
  | 0x010 => .arg0
  | 0x014 => .arg1
  | 0x018 => .arg2
  | 0x01C => .arg3
  | 0x020 => .res
  | 0x024 => .res2
  | 0x028 => .sponge
  | _ => .reserved

/-- The window map (R51, R81), for offsets that `accessOk` accepts. -/
def target (c : Config) (off : Nat) : Target :=
  if off < 0x100 then controlRegister off
  else if off < 0x1C8 then
    if (off - 0x100) % 8 < 4 then .ksl ((off - 0x100) / 8) else .ksh ((off - 0x100) / 8)
  else if off < 0x8000 then .reserved
  else if off - 0x8000 < c.bufBytes then .buf (off - 0x8000)
  else .reserved

/-- What a read of a target returns while the block may be read there (R51); `size` counts for BUF only (R83). Reads
have no side effect (R89). -/
def readTarget (t : Target) (size : Nat) (s : State) : Word :=
  match t with
  | .id => idValue
  | .ctrl => ctrlWord s
  | .status => statusWord s
  | .cmd => s.cmd
  | .arg0 => s.arg0
  | .arg1 => s.arg1
  | .arg2 => s.arg2
  | .arg3 => s.arg3
  | .res => s.res
  | .res2 => s.res2
  | .sponge => spongeWord s
  | .ksl i => (lane s.ks i).setWidth 32
  | .ksh i => (lane s.ks i >>> 32).setWidth 32
  | .buf a => leWord (s.buf.read a size)
  | .reserved => 0

/-- Replacing one half of one lane (R45): nothing else changes. -/
def setLaneHalf (A : KeccakState) (i : Nat) (high : Bool) (v : Word) : KeccakState :=
  mkLanes fun k =>
    if k = i then if high then v ++ (lane A k).setWidth 32 else ((lane A k >>> 32).setWidth 32 : Word) ++ v
    else lane A k

/-- What a write of a target does while the block may be written there (R51). The writes with side effects are CMD,
STATUS and CTRL (R89); read-only and reserved targets ignore it (R40, R51, R85). -/
def writeTarget (t : Target) (size : Nat) (v : Word) (s : State) : State :=
  match t with
  | .id => s
  | .ctrl => s.writeCtrl v
  | .status => s.clearStatus v
  | .cmd => s.accept v
  | .arg0 => { s with arg0 := v }
  | .arg1 => { s with arg1 := v }
  | .arg2 => { s with arg2 := v }
  | .arg3 => { s with arg3 := v }
  | .res => s
  | .res2 => s
  | .sponge => s
  | .ksl i => { s with ks := setLaneHalf s.ks i false v }
  | .ksh i => { s with ks := setLaneHalf s.ks i true v }
  | .buf a => { s with buf := s.buf.write a (leBytes size v) }
  | .reserved => s

/-- The reads that R350 allows while BUSY = 1. -/
def readAllowed (t : Target) : Bool := t == .id || t == .ctrl || t == .status || t == .cmd

/-- The writes that R350 allows while BUSY = 1. -/
def writeAllowed (t : Target) : Bool := t == .ctrl || t == .status

/-- The low `size` bytes of a word, zero-extended. -/
def lowBytes (size : Nat) (v : Word) : Word := BitVec.ofNat 32 (v.toNat % 2 ^ (8 * size))

/-- The unspecified value of a disallowed read (R350): a fresh free value (log 5). -/
def freeData (size : Nat) (s : State) : Word := lowBytes size (Config.freeRead s.freeCount)

/-- A well-formed read at an offset (R51, R350): the answer and the state it leaves. -/
def readAccess (off size : Nat) (s : State) : Response × State :=
  let t := target s.cfg off
  if s.busy && !readAllowed t then (.data (freeData size s), { s.setHz with freeCount := s.freeCount + 1 })
  else (.data (readTarget t size s), s)

/-- A well-formed write at an offset (R51, R350): while BUSY = 1 a disallowed one is dropped and sets HZ. -/
def writeAccess (off size : Nat) (v : Word) (s : State) : Response × State :=
  let t := target s.cfg off
  if s.busy && !writeAllowed t then (.ack, s.setHz) else (.ack, writeTarget t size v s)

/-- One access at an offset of the window: the access rules come first, and an access that breaks them returns the
fault value `HOST_BUS_ERROR` and changes nothing (R84, R314, R350). -/
def busAccess (a : Access) (off : Nat) (s : State) : Except Fault (Response × State) :=
  match a with
  | .read _ size => if accessOk off size then .ok (readAccess off size s) else .error .hostBusError
  | .write _ size v => if accessOk off size then .ok (writeAccess off size v s) else .error .hostBusError

/-- The bus address of an access. -/
def Access.addr : Access → Nat
  | .read addr _ => addr
  | .write addr _ _ => addr

/-- One host step (R15, R89): the access is performed and its answer recorded. An access outside the window does not
reach the block, which answers nothing (log 7). -/
def hostStep (a : Access) (s : State) : State :=
  match windowOffset s.cfg a.addr with
  | none => { s with resp := none }
  | some off =>
    match busAccess a off s with
    | .ok (r, t) => { t with resp := some r }
    | .error f => { s with resp := some (.fault f) }

end Sys2Proof.Machine
end

