-- ==== Sys2Proof/Machine/Agents.lean ====
section
/-! DEFINITION. The steps of the agents (spec/00_scope.md R15): the core performs the command in flight, and the
outside world's next step is taken from `State.env` (log 3). -/

namespace Sys2Proof.Machine

/-- Performing the command in flight (R90): CUR is decoded (R117) and run; an illegal word completes with E_ILLEGAL and
changes nothing else (R119). CUR was latched at acceptance and is not read again from CMD (R94). -/
def performCommand (s : State) : Host.Outcome State Fault Refusal :=
  match decode s.cfg.np s.cur with
  | some i => exec i s
  | none => .next (s.fail .illegal)

/-- The core's step: an idle block does nothing (R320). -/
def coreStep (s : State) : Host.Outcome State Fault Refusal :=
  if s.busy then performCommand s else .next s

/-- One step of the machine: the next step of the outside world, or the core's when `env` says so or has nothing more
to say (then an accepted command completes, R361). -/
def agentStep (s : State) : Host.Outcome State Fault Refusal :=
  match s.env with
  | [] => coreStep s
  | .core :: rest => coreStep { s with env := rest }
  | .host a :: rest => .next (hostStep a { s with env := rest })
  | .powerOnReset :: rest => .next (State.blockReset { s with env := rest })

/-- The host has just issued the word `w` (R90) and the core moves next. -/
def issueNow (w : Word) (s : State) : State := { s.accept w with env := .core :: s.env }

end Sys2Proof.Machine
end

