-- ==== Sys2Proof/Machine/Step.lean ====
section
/-! DEFINITION. The step function of the machine, and how a command word is placed where the core takes its next
command (log 13). -/

namespace Sys2Proof.Machine

/-- One step (R15). -/
def step (s : State) : Host.Outcome State Fault Refusal := agentStep s

/-- `s` with the command word `w` accepted, so that the very next step performs it (R90). The block fetches nothing
(R94): the core's next command is the word in CUR. -/
def State.withFetchWord (s : State) (nbits w : Nat) : State := issueNow (BitVec.ofNat 32 (w % 2 ^ nbits)) s

end Sys2Proof.Machine
end

