-- ==== Sys2Proof/Machine/HostProgram.lean ====
section
/-! DEFINITION. The notation of host programs (spec/30_encoding.md R120, R121) as lists of events: a program is put
in `State.env`, and the step function then runs it (log 13). -/

namespace Sys2Proof.Machine

/-- The register operand `pN` (R120). -/
def pregAsm (r : PReg) : String := "p" ++ toString r.val

/-- The ring suffix (R120). -/
def ringAsm : Ring → String
  | .kyber => ".K "
  | .dilithium => ".D "

/-- The assembler form of a command (R120), immediates in decimal. -/
def instrAsm : Instr → String
  | .sinit .shake128 => "SINIT shake128"
  | .sinit .shake256 => "SINIT shake256"
  | .sfinal ds => "SFINAL " ++ toString ds.toNat
  | .pload rg rd => "PLOAD" ++ ringAsm rg ++ pregAsm rd
  | .pstore rs1 => "PSTORE " ++ pregAsm rs1
  | .ntt rg rd rs1 => "NTT" ++ ringAsm rg ++ pregAsm rd ++ ", " ++ pregAsm rs1
  | .intt rg rd rs1 => "INTT" ++ ringAsm rg ++ pregAsm rd ++ ", " ++ pregAsm rs1
  | .pmul rg rd rs1 rs2 => "PMUL" ++ ringAsm rg ++ pregAsm rd ++ ", " ++ pregAsm rs1 ++ ", " ++ pregAsm rs2
  | .pmac rg rd rs1 rs2 => "PMAC" ++ ringAsm rg ++ pregAsm rd ++ ", " ++ pregAsm rs1 ++ ", " ++ pregAsm rs2
  | .cbd rd eta => "CBD " ++ pregAsm rd ++ ", " ++ toString eta.code
  | .kperm => "KPERM"
  | .kzero => "KZERO"
  | .sabsorb => "SABSORB"
  | .ssqueeze => "SSQUEEZE"
  | .montr => "MONTR"
  | .fqmul => "FQMUL"
  | .bred => "BRED"
  | .dred => "DRED"
  | .dcsub => "DCSUB"
  | .wipe => "WIPE"

/-- `WR reg, v`, the register by its offset in the window (R51, R121). -/
def wr (c : Config) (off : Nat) (v : Word) : Event := .host (.write (c.coreBase + off) 4 v)

/-- `RD reg` (R121). -/
def rd (c : Config) (off : Nat) : Event := .host (.read (c.coreBase + off) 4)

/-- `WRB a, bytes`, one 8-bit write for each byte (R121). -/
def wrb (c : Config) (a : Nat) : List Byte → List Event
  | [] => []
  | b :: bs => .host (.write (c.coreBase + 0x8000 + a) 1 (b.setWidth 32)) :: wrb c (a + 1) bs

/-- `RDB a, n`, one 8-bit read for each byte (R121). -/
def rdb (c : Config) (a n : Nat) : List Event :=
  (List.range n).map fun k => .host (.read (c.coreBase + 0x8000 + a + k) 1)

/-- `ISSUE word` (R121). -/
def issue (c : Config) (w : Word) : Event := wr c 0x00C w

/-- `WAIT` when the command completes after `polls` reads of STATUS that saw BUSY = 1 (R121, R361). -/
def waitDone (c : Config) (polls : Nat) : List Event := List.replicate polls (rd c 0x008) ++ [.core, rd c 0x008]

/-- `DO cmd` (R121). -/
def doCmd (c : Config) (polls : Nat) (i : Instr) : List Event := issue c (encode i) :: waitDone c polls

/-- `SHAKE128 dst, src, inlen, outlen` and `SHAKE256` (R121, R176). -/
def shakeProgram (c : Config) (polls : Nat) (v : Variant) (dst src inlen outlen : Word) : List Event :=
  doCmd c polls (.sinit v) ++ [wr c 0x010 src, wr c 0x014 inlen] ++ doCmd c polls .sabsorb ++
    doCmd c polls (.sfinal 0x1F) ++ [wr c 0x010 dst, wr c 0x014 outlen] ++ doCmd c polls .ssqueeze

/-- `POLYMUL pd, pa, pb, pt` (R121); the host must choose pt other than pb. -/
def polymulProgram (c : Config) (polls : Nat) (rg : Ring) (pd pa pb pt : PReg) : List Event :=
  doCmd c polls (.ntt rg pt pa) ++ doCmd c polls (.ntt rg pd pb) ++ doCmd c polls (.pmul rg pd pt pd) ++
    doCmd c polls (.intt rg pd pd)

end Sys2Proof.Machine
end

