-- ==== Sys2Proof/Reference.lean ====
section
/-! DEFINITION. What the spec says a second time in another form, written from that form alone: the derivations of the
permutation's tables (spec/40_permutation.md R146, R147), the one-shot sponge of DOC (spec/41_sponge.md R175), the
transforms as in-place loops (spec/43_polynomial.md R235 to R238) and the ring (R247). The claims compare the machine
with these; the machine does not use them. -/

namespace Sys2Proof.Reference

open Sys2Proof.Machine

/-! ## The derivations of RHO and RC -/

/-- The walk of R146 from step t on, for `n` steps: the positions (x, y) with the offset each gets. -/
def rhoWalk : Nat → Nat → Nat → Nat → List (Nat × Nat × Nat)
  | 0, _, _, _ => []
  | n + 1, t, x, y => (x, y, (t + 1) * (t + 2) / 2 % 64) :: rhoWalk n (t + 1) y ((2 * x + 3 * y) % 5)

/-- One step of the LFSR of R147; the list holds R[0] to R[7]. -/
def lfsrStep (r : List Bool) : List Bool :=
  let s := false :: r
  let top := s.getD 8 false
  (s.mapIdx fun i b => if i = 0 ∨ i = 4 ∨ i = 5 ∨ i = 6 then b ^^ top else b).take 8

/-- `rc(t)` (R147). -/
def rcBit (t : Nat) : Bool := ((lfsrStep^[t % 255]) [true, false, false, false, false, false, false, false]).getD 0 false

/-- Bit z of `RC[ir]` (R147): bit 2^j - 1 is rc(j + 7 ir) for j = 0 to 6, every other bit is 0. -/
def rcDerived (ir z : Nat) : Bool := (List.range 7).any fun j => z == 2 ^ j - 1 && rcBit (j + 7 * ir)

/-! ## The one-shot sponge -/

/-- The message padded to whole blocks of `r` bytes: the domain-separator byte right after the input, zeros, and 0x80
XORed into the last byte. -/
def padMessage (r : Nat) (ds : Byte) (msg : List Byte) : List Byte :=
  (msg ++ ds :: List.replicate (r - 1 - msg.length % r) 0).modify ((msg.length / r + 1) * r - 1) (· ^^^ 0x80)

/-- XOR a block of at most 200 bytes into a Keccak state, lane by lane, bytes little-endian within a lane (R32). -/
def xorBlock (A : KeccakState) (block : List Byte) : KeccakState :=
  mkLanes fun i => lane A i ^^^ BitVec.ofNat 64 (leNat ((block.drop (8 * i)).take 8))

/-- The state after absorbing the blocks of the padded message, each XORed in and permuted. -/
def absorbedState (r : Nat) (ds : Byte) (msg : List Byte) : KeccakState :=
  (List.range (msg.length / r + 1)).foldl
    (fun A b => keccakF (xorBlock A (((padMessage r ds msg).drop (b * r)).take r))) zeroLanes

/-- Byte k of the stream that DOC's `squeeze` produces: byte k mod r of the state after k div r more permutations. -/
def shakeByte (v : Variant) (ds : Byte) (msg : List Byte) (k : Nat) : Byte :=
  let r := (variantRate v).toNat
  stateByte ((keccakF^[k / r]) (absorbedState r ds msg)) (k % r)

/-! ## The transforms as in-place loops -/

/-- `f[i] <- v`. -/
def setCoef (f : PolyReg) (i : Nat) (v : Word) : PolyReg := mkPoly fun k => if k = i then v else coef f k

/-- The body of the innermost loop of R235 and R237. -/
def ctButterfly (q z len : Nat) (f : PolyReg) (j : Nat) : PolyReg :=
  let t := mulMod q z (coef f (j + len))
  let g := setCoef f (j + len) (subMod q (coef f j) t)
  setCoef g j (addMod q (coef g j) t)

/-- The body of the innermost loop of R236. -/
def gsButterflyK (z len : Nat) (f : PolyReg) (j : Nat) : PolyReg :=
  let t := coef f j
  let g := setCoef f j (addMod qKyber t (coef f (j + len)))
  setCoef g (j + len) (mulMod qKyber z (subMod qKyber (coef g (j + len)) t))

/-- The body of the innermost loop of R238. -/
def gsButterflyD (z len : Nat) (f : PolyReg) (j : Nat) : PolyReg :=
  let t := coef f j
  let g := setCoef f j (addMod qDilithium t (coef f (j + len)))
  setCoef g (j + len) (mulMod qDilithium z (subMod qDilithium t (coef g (j + len))))

/-- The loop over j from `start` to `start + len - 1`. -/
def blockLoop (body : Nat → PolyReg → Nat → PolyReg) (len start : Nat) (f : PolyReg) : PolyReg :=
  (List.range len).foldl (fun g k => body len g (start + k)) f

/-- The starts 0, 2·len, 4·len, ... below 256. -/
def blockStarts (len : Nat) : List Nat := (List.range (128 / len)).map fun b => b * (2 * len)

/-- A forward transform: the counter goes up, from 1 (R235, R237). -/
def forwardLoop (q : Nat) (zeta : Nat → Nat) (lens : List Nat) (f : PolyReg) : PolyReg :=
  (lens.foldl (fun st len => (blockStarts len).foldl
    (fun st start => (st.1 + 1, blockLoop (ctButterfly q (zeta st.1)) len start st.2)) st) (1, f)).2

/-- An inverse transform without its last scaling: the counter goes down, from `top` (R236, R238). -/
def inverseLoop (body : Nat → Nat → PolyReg → Nat → PolyReg) (top : Nat) (lens : List Nat) (f : PolyReg) : PolyReg :=
  (lens.foldl (fun st len => (blockStarts len).foldl
    (fun st start => (st.1 - 1, blockLoop (body st.1) len start st.2)) st) (top, f)).2

/-- `for j in 0 .. 255: f[j] <- (f[j] * c) mod q` (R236, R238). -/
def scaleLoop (q c : Nat) (f : PolyReg) : PolyReg :=
  (List.range 256).foldl (fun g j => setCoef g j (mulMod q c (coef g j))) f

/-- `NTT_K` of R235. -/
def nttKLoop : PolyReg → PolyReg := forwardLoop 3329 zetaKyber [128, 64, 32, 16, 8, 4, 2]

/-- `INTT_K` of R236. -/
def inttKLoop (f : PolyReg) : PolyReg :=
  scaleLoop 3329 3303 (inverseLoop (fun i => gsButterflyK (zetaKyber i)) 127 [2, 4, 8, 16, 32, 64, 128] f)

/-- `NTT_D` of R237. -/
def nttDLoop : PolyReg → PolyReg := forwardLoop 8380417 zetaDilithium [128, 64, 32, 16, 8, 4, 2, 1]

/-- `INTT_D` of R238; m is 256 before the first block, which takes ZD[255]. -/
def inttDLoop (w : PolyReg) : PolyReg :=
  scaleLoop 8380417 8347681
    (inverseLoop (fun m => gsButterflyD ((8380417 - zetaDilithium m) % 8380417)) 255 [1, 2, 4, 8, 16, 32, 64, 128] w)

/-! ## The ring -/

/-- Coefficient k of the negacyclic product of f and g mod q (R247, law 2). -/
def negacyclic (q : Nat) (f g : PolyReg) (k : Nat) : Int :=
  (((List.range (k + 1)).map fun i => ((coef f i).toNat * (coef g (k - i)).toNat : Int)).sum -
    ((List.range (255 - k)).map fun m => ((coef f (k + 1 + m)).toNat * (coef g (255 - m)).toNat : Int)).sum) % q

/-- The value of a polynomial at x, mod q (R247, law 4). -/
def evalAt (q : Nat) (f : PolyReg) (x : Nat) : Nat :=
  ((List.range 256).map fun i => (coef f i).toNat * x ^ i).sum % q

/-- The coefficient of X^e, e = 0 or 1, of f mod (X^2 - γ), mod q (R247, law 3). -/
def residueAt (q : Nat) (f : PolyReg) (γ e : Nat) : Nat :=
  ((List.range 128).map fun m => (coef f (2 * m + e)).toNat * γ ^ m).sum % q

end Sys2Proof.Reference
end

