-- ==== Sys2Proof/Safety.lean ====
section
/-! DEFINITION. What counts as a safe state and a safe step, in the terms that the claims use: the invariants that the
spec names (spec/10_state.md R33 to R36, spec/60_exceptions.md R305) and those of the representation. -/

namespace Sys2Proof.Machine

/-- The outcome is a next state: no fault, no refusal. -/
def GoesOn (o : Host.Outcome State Fault Refusal) : Prop := ∃ t, o = .next t

/-- The codes that a decoded command can raise, E_ILLEGAL apart (R308). -/
def errorColumn : Instr → List Err
  | .kperm => []
  | .kzero => []
  | .sinit _ => []
  | .sabsorb => [.seq, .bounds]
  | .sfinal _ => [.seq]
  | .ssqueeze => [.seq, .bounds]
  | .montr => []
  | .fqmul => []
  | .bred => []
  | .dred => []
  | .dcsub => [.range]
  | .pload _ _ => [.bounds, .range]
  | .pstore _ => [.bounds]
  | .ntt _ _ _ => [.range]
  | .intt _ _ _ => [.range]
  | .pmul _ _ _ _ => [.range]
  | .pmac _ _ _ _ => [.range]
  | .cbd _ _ => [.bounds]
  | .wipe => []

/-- The buffer's list is in canonical form and lists only bytes that exist (R37). -/
abbrev BufOk (s : State) : Prop := s.buf.wf ∧ s.buf.below s.cfg.bufBytes

/-- Every coefficient is below QD (R36), and the registers from NP on, which do not exist, hold 0. -/
abbrev PolyOk (s : State) : Prop :=
  ∀ r : PReg, ∀ i < 256,
    (coef (s.readP r) i).toNat < qDilithium ∧ (s.cfg.np ≤ r.val → coef (s.readP r) i = 0)

/-- The invariants of SP_PHASE (R33), SP_RATE (R34) and SP_POS (R35). -/
abbrev SpongeOk (s : State) : Prop :=
  s.spPhase ≠ 3 ∧ (s.spRate = 0 ∨ s.spRate = 136 ∨ s.spRate = 168) ∧ (s.spRate = 0 ↔ s.spPhase = phaseIdle) ∧
    (s.spPhase = phaseIdle → s.spPos = 0) ∧ (s.spPhase = phaseAbsorb → s.spPos < s.spRate) ∧
    (s.spPhase = phaseSqueeze → s.spPos ≤ s.spRate)

/-- ERRCODE is a code of R305, and 0 exactly when ERR is clear (R302, R303). -/
abbrev ErrorOk (s : State) : Prop := s.errcode.toNat ≤ 4 ∧ (s.err = true ↔ s.errcode ≠ 0)

/-- CUR is 0 when no command is in flight (R46, R50, R301); while one is, it is the accepted word and DONE is 0
(R90). -/
abbrev FlightOk (s : State) : Prop :=
  (s.busy = false → s.cur = 0) ∧ (s.busy = true → s.cur = s.cmd ∧ s.done = false)

/-- The invariant of the machine. -/
structure Inv (s : State) : Prop where
  cfg : s.cfg.legal
  buf : BufOk s
  poly : PolyOk s
  sponge : SpongeOk s
  error : ErrorOk s
  flight : FlightOk s

end Sys2Proof.Machine
end

