-- ==== Sys2Proof/Certificates/Slice0/Obligations.lean ====
section
/-! DEFINITION. The statements for the provers. Each docstring names the rule of spec/ it formalises. -/

open Sys2Proof Sys2Proof.Machine Sys2Proof.Reference

/-! ## Encoding (30_encoding.md) -/

/-- R118, R120: decoding the word of a well-formed command gives the command back, every operand at every value. -/
def Obligations.DecodeOfEncodeIsIdentity : Prop :=
  ∀ (np : Nat) (i : Instr), i.wellFormed np = true → decode np (encode i) = some i

/-- R117, R119: every legal word has one command, and the command's word is that word: no bit is ignored. -/
def Obligations.EncodeOfDecodeIsIdentity : Prop :=
  ∀ (np : Nat) (w : Word) (i : Instr), decode np w = some i → encode i = w ∧ i.wellFormed np = true

/-- R118: a word is a command if and only if it is of that command's row, in match and mask form, and its register
fields are below NP. A word of a row is the encoding of a command of the row's mnemonic, and it decodes to that command or,
when a register it names does not exist, to nothing. -/
def Obligations.DecodeAgreesWithOpcodeTable : Prop :=
  ∀ (np : Nat) (w : Word),
    (∀ i, decode np w = some i → ∃ r ∈ opcodeTable, r.mnemonic = i.mnemonic ∧ w &&& r.mask = r.pattern) ∧
    (∀ r ∈ opcodeTable, w &&& r.mask = r.pattern →
      ∃ i : Instr, i.mnemonic = r.mnemonic ∧ encode i = w ∧ decode np w = if i.wellFormed np then some i else none)

/-- R118: words written out from the encodings of the spec, at least one of each family, and what they stand for. -/
def Obligations.SpecWordsDecode : Prop :=
  decode 16 0x10000000 = some .kperm ∧ decode 16 0x20000001 = some (.sinit .shake256) ∧
  decode 16 0x2200001F = some (.sfinal 0x1F) ∧ decode 16 0x34000000 = some .dcsub ∧
  decode 16 0x408F0000 = some (.pload .dilithium 15) ∧ decode 16 0x41004000 = some (.pstore 4) ∧
  decode 16 0x45831200 = some (.pmac .dilithium 3 1 2) ∧ decode 16 0x50050003 = some (.cbd 5 .three) ∧
  decode 16 0xF0000000 = some .wipe ∧ decode 16 0x00000000 = none ∧ decode 16 0x42000100 = none

/-- R113: a nonzero RSV makes the command in flight E_ILLEGAL. -/
def Obligations.ReservedBitsMakeIllegal : Prop :=
  ∀ s : State, s.busy = true → (s.cur.toNat / 1048576) % 8 ≠ 0 →
    coreStep s = .next { s with busy := false, done := true, cur := 0, err := true, errcode := 1 }

/-- R119: an opcode outside the map does not decode, and a word that does not decode changes nothing but BUSY, DONE, CUR,
ERR and ERRCODE, which reports E_ILLEGAL. -/
def Obligations.IllegalWordOnlyReports : Prop :=
  (∀ (np : Nat) (w : Word),
    w.toNat / 16777216 ∉ [0x10, 0x11, 0x20, 0x21, 0x22, 0x23, 0x30, 0x31, 0x32, 0x33, 0x34, 0x40, 0x41, 0x42, 0x43,
      0x44, 0x45, 0x50, 0xF0] → decode np w = none) ∧
  ∀ s : State, s.busy = true → decode s.cfg.np s.cur = none →
    coreStep s = .next { s with busy := false, done := true, cur := 0, err := true, errcode := 1 }

/-! ## Steps (00_scope.md R15, 20_memory.md R90) -/

/-- R90: when the command in flight decodes, the core's step is that command, whether the schedule says so or has run
out (logs 3 and 13: the schedule is the model's own); and a word that is placed where the core takes its next command is
performed by the very next step. -/
def Obligations.StepPerformsDecodedCommand : Prop :=
  (∀ (s : State) (i : Instr), s.busy = true → decode s.cfg.np s.cur = some i →
    (s.env = [] → step s = exec i s) ∧
    (∀ rest, s.env = .core :: rest → step s = exec i { s with env := rest })) ∧
  ∀ (s : State) (w : Nat) (i : Instr), decode s.cfg.np (BitVec.ofNat 32 (w % 2 ^ 32)) = some i →
    step (s.withFetchWord 32 w) = exec i (s.accept (BitVec.ofNat 32 (w % 2 ^ 32)))

/-- R15, R320, R340: what a step does besides: a scheduled host access, a power-on reset, and nothing when the block is
idle. The schedule is the model's own (log 3). -/
def Obligations.StepFollowsSchedule : Prop :=
  ∀ (s : State) (rest : List Event) (a : Access),
    (s.env = .host a :: rest → step s = .next (hostStep a { s with env := rest })) ∧
    (s.env = .powerOnReset :: rest → step s = .next (State.blockReset { s with env := rest })) ∧
    (s.busy = false → s.env = .core :: rest → step s = .next { s with env := rest }) ∧
    (s.busy = false → s.env = [] → step s = .next s)

/-- No step ends in a fault or a refusal: every command completes (R300, R313), and a malformed host access is answered and
the block goes on, which is log 4, DEDUCED from R314. No step changes the configuration (R15, logs 1 and 14). -/
def Obligations.EveryStepAnswersNextState : Prop :=
  ∀ s : State, ∃ t, step s = .next t ∧ t.cfg = s.cfg

/-- R300, R343: a command in flight stays the one in flight, or the core's step completes it, or a reset aborts it: the
power-on reset or the write of SRST to CTRL. The schedule `env` is the model's own (log 3), as are the fields that a reset
does not touch (log 14). -/
def Obligations.FlightEndsByCompletionOrReset : Prop :=
  ∀ s t : State, s.busy = true → step s = .next t →
    (t.busy = true ∧ t.cur = s.cur) ∨
    ((s.env = [] ∨ ∃ rest, s.env = .core :: rest) ∧ t.busy = false ∧ t.done = true ∧ t.cur = 0) ∨
    (((∃ rest, s.env = .powerOnReset :: rest) ∨
        ∃ v rest, s.env = .host (.write (s.cfg.coreBase + 4) 4 v) :: rest ∧ v.getLsbD 1 = true) ∧
      t = { State.reset with cfg := s.cfg, env := t.env, resp := t.resp, freeCount := t.freeCount })

/-- R301, R306: every command completes, with BUSY, DONE and CUR written; it leaves ERR and ERRCODE, or it raises a code of
its row and then nothing else has changed. The rows are R308's, which the spec derives. When ERR already holds the code that
is raised, the first alternative holds too; the statements about each error give those states exactly. -/
def Obligations.CommandsCompleteOrOnlyReport : Prop :=
  ∀ (i : Instr) (s : State), ∃ t, exec i s = .next t ∧ t.busy = false ∧ t.done = true ∧ t.cur = 0 ∧
    ((t.err = s.err ∧ t.errcode = s.errcode) ∨
      ∃ e ∈ errorColumn i, t = { s with busy := false, done := true, cur := 0, err := true, errcode := e.code })

/-- R38, R39, R48: no command writes the configuration, CTRL, HZ or the CMD readback, none but WIPE writes an ARG
register, and none but the scalar commands and WIPE writes RES or RES2. `env`, `resp` and `freeCount` are the model's own
(logs 3, 6 and 5). -/
def Obligations.CommandsWriteOnlyTheirRegisters : Prop :=
  ∀ (i : Instr) (s t : State), exec i s = .next t →
    t.cfg = s.cfg ∧ t.ie = s.ie ∧ t.hz = s.hz ∧ t.cmd = s.cmd ∧ t.env = s.env ∧ t.resp = s.resp ∧
    t.freeCount = s.freeCount ∧
    (i ≠ .wipe → t.arg0 = s.arg0 ∧ t.arg1 = s.arg1 ∧ t.arg2 = s.arg2 ∧ t.arg3 = s.arg3) ∧
    (i ∉ [.montr, .fqmul, .bred, .dred, .dcsub, .wipe] → t.res = s.res ∧ t.res2 = s.res2)

/-- R33 to R36, R46, R302, R305 (and the representation of P and BUF, logs 9 and 16): every step keeps the invariant,
from every state that has it. -/
def Obligations.StepKeepsInvariant : Prop :=
  ∀ s t : State, Inv s → step s = .next t → Inv t

/-- R50: the invariant holds right after reset. -/
def Obligations.ResetHasInvariant : Prop := Inv State.reset

/-- R50: what every piece of state holds after reset. -/
def Obligations.ResetStateHoldsSpecValues : Prop :=
  (∀ i < 25, lane State.reset.ks i = 0) ∧ State.reset.spPhase = 0 ∧ State.reset.spRate = 0 ∧ State.reset.spPos = 0 ∧
  (∀ r : PReg, ∀ i < 256, coef (State.reset.readP r) i = 0) ∧ (∀ a, State.reset.buf.byte a = 0) ∧
  State.reset.arg0 = 0 ∧ State.reset.arg1 = 0 ∧ State.reset.arg2 = 0 ∧ State.reset.arg3 = 0 ∧
  State.reset.res = 0 ∧ State.reset.res2 = 0 ∧ idValue = 0x50430700 ∧ ctrlWord State.reset = 0 ∧
  statusWord State.reset = 0 ∧ State.reset.cmd = 0 ∧ spongeWord State.reset = 0 ∧
  State.reset.cur = 0 ∧ State.reset.busy = false ∧ irq State.reset = false

/-! ## Permutation (40_permutation.md) -/

/-- R148, R149: KPERM applies KeccakF to KS and leaves the sponge registers in every phase; KZERO clears KS and the
sponge registers. Nothing else changes but BUSY, DONE and CUR. -/
def Obligations.PermutationCommandsComplete : Prop :=
  ∀ s : State,
    exec .kperm s = .next { s with ks := keccakF s.ks, busy := false, done := true, cur := 0 } ∧
    exec .kzero s = .next { s with
      ks := Vector.replicate 25 0, spPhase := 0, spRate := 0, spPos := 0, busy := false, done := true, cur := 0 }

/-- R141 to R145: the five steps of a round, lane by lane, and the order of the steps and rounds (R140). π is stated as
the destination of each lane and as the source of each lane. -/
def Obligations.KeccakStepsLaneByLane : Prop :=
  ∀ (A : KeccakState) (ir : Nat),
    (∀ x < 5, ∀ y < 5,
      let C := fun x : Nat => laneXY A x 0 ^^^ laneXY A x 1 ^^^ laneXY A x 2 ^^^ laneXY A x 3 ^^^ laneXY A x 4
      laneXY (theta A) x y = laneXY A x y ^^^ (C ((x + 4) % 5) ^^^ (C ((x + 1) % 5)).rotateLeft 1) ∧
      laneXY (rhoStep A) x y = (laneXY A x y).rotateLeft (rho x y) ∧
      laneXY (piStep A) y ((2 * x + 3 * y) % 5) = laneXY A x y ∧
      laneXY (piStep A) x y = laneXY A ((x + 3 * y) % 5) x ∧
      laneXY (chi A) x y = laneXY A x y ^^^ (~~~ laneXY A ((x + 1) % 5) y &&& laneXY A ((x + 2) % 5) y)) ∧
    lane (iota A ir) 0 = lane A 0 ^^^ roundConstant ir ∧ (∀ i, 0 < i → lane (iota A ir) i = lane A i) ∧
    keccakF A = (List.range 24).foldl (fun B r => iota (chi (piStep (rhoStep (theta B)))) r) A

/-- R146, R147: the walk visits every position but (0, 0) once and gives the table of R142; the LFSR gives the table of
R145. -/
def Obligations.TablesMatchTheirDerivations : Prop :=
  rho 0 0 = 0 ∧ (∀ e ∈ rhoWalk 24 0 1 0, rho e.1 e.2.1 = e.2.2) ∧
  ((rhoWalk 24 0 1 0).map fun e => (e.1, e.2.1)).Nodup ∧
  (∀ e ∈ rhoWalk 24 0 1 0, e.1 < 5 ∧ e.2.1 < 5 ∧ (e.1, e.2.1) ≠ (0, 0)) ∧
  ∀ ir < 24, ∀ z < 64, (roundConstant ir).getLsbD z = rcDerived ir z

/-- R148: "KeccakF is a bijection, so KPERM never loses information". -/
def Obligations.KeccakIsBijective : Prop := Function.Bijective keccakF

/-! ## Sponge (41_sponge.md) -/

/-- R171: SINIT zeroes the state, sets the rate and opens the ABSORB phase, from every phase; and the SPONGE register
then reads 0x0001A800 or 0x00018800 (R44). -/
def Obligations.SinitOpensSession : Prop :=
  ∀ s : State,
    (∃ t, exec (.sinit .shake128) s = .next t ∧ spongeWord t = 0x0001A800 ∧
      t = { s with ks := Vector.replicate 25 0, spRate := 168, spPos := 0, spPhase := 1,
                   busy := false, done := true, cur := 0 }) ∧
    ∃ t, exec (.sinit .shake256) s = .next t ∧ spongeWord t = 0x00018800 ∧
      t = { s with ks := Vector.replicate 25 0, spRate := 136, spPos := 0, spPhase := 1,
                   busy := false, done := true, cur := 0 }

/-- R172: in phase ABSORB and in bounds, SABSORB absorbs the ARG1 bytes from ARG0 on and changes nothing else. -/
def Obligations.SabsorbAbsorbsBytes : Prop :=
  ∀ s : State, s.spPhase = 1 → argAddress s + argLength s ≤ s.cfg.bufBytes →
    let r := absorb s.spRate { ks := s.ks, pos := s.spPos, perms := 0 }
      ((List.range (argLength s)).map fun k => s.buf.byte (argAddress s + k))
    exec .sabsorb s = .next { s with ks := r.ks, spPos := r.pos, busy := false, done := true, cur := 0 }

/-- R172: absorbing n bytes from a position below the rate moves the position to (pos + n) mod rate and performs
(pos + n) div rate permutations, whatever the bytes are. -/
def Obligations.AbsorbPositionAndCount : Prop :=
  ∀ (rate : BitVec 8) (r : SpongeRun) (bs : List Byte), r.pos < rate →
    (absorb rate r bs).pos.toNat = (r.pos.toNat + bs.length) % rate.toNat ∧
    (absorb rate r bs).perms = r.perms + (r.pos.toNat + bs.length) / rate.toNat

/-- R175: absorbing a range of the buffer in two SABSORBs leaves the Keccak state and the position that one leaves. -/
def Obligations.SabsorbInPieces : Prop :=
  ∀ (s : State) (a n m : Word), s.spPhase = 1 → a.toNat + n.toNat + m.toNat ≤ s.cfg.bufBytes →
    s.cfg.bufBytes ≤ 16384 →
    ∃ t u v, exec .sabsorb { s with arg0 := a, arg1 := n } = .next t ∧
      exec .sabsorb { t with arg0 := a + n, arg1 := m } = .next u ∧
      exec .sabsorb { s with arg0 := a, arg1 := n + m } = .next v ∧ u.ks = v.ks ∧ u.spPos = v.spPos

/-- R173: in phase ABSORB, SFINAL XORs the separator at the position and 0x80 into the last byte of the rate, into one
byte when the two meet, permutes once, and opens the SQUEEZE phase at position 0. -/
def Obligations.SfinalPadsAndPermutes : Prop :=
  ∀ (ds : Byte) (s : State), s.spPhase = 1 → s.spPos < s.spRate → s.spRate.toNat ≤ 168 →
    ∃ A : KeccakState,
      (∀ j < 200, stateByte A j = stateByte s.ks j ^^^ (if j = s.spPos.toNat then ds else 0) ^^^
        (if j = s.spRate.toNat - 1 then 0x80 else 0)) ∧
      exec (.sfinal ds) s = .next { s with
        ks := keccakF A, spPos := 0, spPhase := 2, busy := false, done := true, cur := 0 }

/-- R174: in phase SQUEEZE and in bounds, SSQUEEZE writes the ARG1 bytes of its loop to the buffer from ARG0 on, leaves
every other byte, and changes nothing else but the Keccak state and the position. -/
def Obligations.SsqueezeWritesStream : Prop :=
  ∀ s : State, s.spPhase = 2 → argAddress s + argLength s ≤ s.cfg.bufBytes →
    let out := squeeze s.spRate (argLength s) { ks := s.ks, pos := s.spPos, perms := 0 }
    ∃ t, exec .ssqueeze s = .next t ∧
      t = { s with ks := out.2.ks, spPos := out.2.pos, buf := t.buf, busy := false, done := true, cur := 0 } ∧
      out.1.length = argLength s ∧
      (∀ k < argLength s, t.buf.byte (argAddress s + k) = out.1.getD k 0) ∧
      ∀ x, (x < argAddress s ∨ argAddress s + argLength s ≤ x) → t.buf.byte x = s.buf.byte x

/-- R174, R35: byte k of a squeeze from position pos is byte (pos + k) mod rate of the state after (pos + k) div rate
permutations, and only those permutations are performed: a request that ends within or at the end of the block permutes
nothing. -/
def Obligations.SqueezeStreamClosedForm : Prop :=
  ∀ (rate : BitVec 8) (r : SpongeRun) (n : Nat), 0 < rate.toNat → rate.toNat < 255 → r.pos ≤ rate →
    (squeeze rate n r).1.length = n ∧
    (∀ k < n, (squeeze rate n r).1.getD k 0 =
      stateByte ((keccakF^[(r.pos.toNat + k) / rate.toNat]) r.ks) ((r.pos.toNat + k) % rate.toNat)) ∧
    (n = 0 → (squeeze rate n r).2 = r) ∧
    (0 < n →
      (squeeze rate n r).2.ks = (keccakF^[(r.pos.toNat + n - 1) / rate.toNat]) r.ks ∧
      (squeeze rate n r).2.pos.toNat = (r.pos.toNat + n - 1) % rate.toNat + 1 ∧
      (squeeze rate n r).2.perms = r.perms + (r.pos.toNat + n - 1) / rate.toNat)

/-- R175: two SSQUEEZEs continue one stream: they write the bytes that one writes and leave the same sponge. -/
def Obligations.SsqueezeInPieces : Prop :=
  ∀ (s : State) (a n m : Word), s.spPhase = 2 → a.toNat + n.toNat + m.toNat ≤ s.cfg.bufBytes →
    s.cfg.bufBytes ≤ 16384 →
    ∃ t u v, exec .ssqueeze { s with arg0 := a, arg1 := n } = .next t ∧
      exec .ssqueeze { t with arg0 := a + n, arg1 := m } = .next u ∧
      exec .ssqueeze { s with arg0 := a, arg1 := n + m } = .next v ∧
      u.ks = v.ks ∧ u.spPos = v.spPos ∧ ∀ x, u.buf.byte x = v.buf.byte x

/-- R175: a session of SINIT, SABSORB, SFINAL and SSQUEEZE writes the bytes of the one-shot contract, block by block, for
every message, separator and length that fit the buffer; every other byte of the buffer stays. -/
def Obligations.SessionEqualsOneShotSponge : Prop :=
  ∀ (v : Variant) (ds : Byte) (s : State) (a n b l : Word),
    a.toNat + n.toNat ≤ s.cfg.bufBytes → b.toNat + l.toNat ≤ s.cfg.bufBytes →
    ∃ t1 t2 t3 t4,
      exec (.sinit v) s = .next t1 ∧ exec .sabsorb { t1 with arg0 := a, arg1 := n } = .next t2 ∧
      exec (.sfinal ds) t2 = .next t3 ∧ exec .ssqueeze { t3 with arg0 := b, arg1 := l } = .next t4 ∧
      (∀ k < l.toNat, t4.buf.byte (b.toNat + k) =
        shakeByte v ds ((List.range n.toNat).map fun j => s.buf.byte (a.toNat + j)) k) ∧
      ∀ x, (x < b.toNat ∨ b.toNat + l.toNat ≤ x) → t4.buf.byte x = s.buf.byte x

/-- R177, which the spec derives: a session that absorbs m bytes and squeezes l bytes in any pieces performs
m div r + 1 + max(0, ceil(l / r) - 1) permutations, whatever the bytes are. The one permutation of SFINAL is written into
the statement. -/
def Obligations.SessionPermutationCount : Prop :=
  ∀ (v : Variant) (ds : Byte) (pieces : List (List Byte)) (lengths : List Nat),
    let rate := variantRate v
    let r := rate.toNat
    let absorbed := pieces.foldl (absorb rate) { ks := zeroLanes, pos := 0, perms := 0 }
    let final : SpongeRun :=
      { ks := keccakF (padState absorbed.ks absorbed.pos rate ds), pos := 0, perms := absorbed.perms + 1 }
    let squeezed := lengths.foldl (fun run n => (squeeze rate n run).2) final
    squeezed.perms = (pieces.map List.length).sum / r + 1 + ((lengths.sum + r - 1) / r - 1)

/-- R170: the phase machine. SINIT leads to ABSORB from every phase; SABSORB and SSQUEEZE stay in theirs; SFINAL leads
from ABSORB to SQUEEZE; KZERO, WIPE and reset lead to IDLE; a sponge command in another phase raises E_SEQ and changes
nothing; no other command and no write to the KS window changes the phase. -/
def Obligations.SpongePhaseMachine : Prop :=
  ∀ (s t : State) (i : Instr) (v : Variant) (ds : Byte) (r : Nat) (w : Word),
    let refused : State := { s with busy := false, done := true, cur := 0, err := true, errcode := 2 }
    (exec (.sinit v) s = .next t → t.spPhase = 1) ∧
    (s.spPhase = 1 → exec .sabsorb s = .next t → t.spPhase = 1) ∧
    (s.spPhase = 1 → exec (.sfinal ds) s = .next t → t.spPhase = 2) ∧
    (s.spPhase = 2 → exec .ssqueeze s = .next t → t.spPhase = 2) ∧
    (exec .kzero s = .next t → t.spPhase = 0) ∧ (exec .wipe s = .next t → t.spPhase = 0) ∧
    s.blockReset.spPhase = 0 ∧
    (s.spPhase ≠ 1 → exec .sabsorb s = .next refused ∧ exec (.sfinal ds) s = .next refused) ∧
    (s.spPhase ≠ 2 → exec .ssqueeze s = .next refused) ∧
    (i ∉ [.sinit .shake128, .sinit .shake256, .sfinal ds, .kzero, .wipe] → (∀ d, i ≠ .sfinal d) →
      exec i s = .next t → t.spPhase = s.spPhase) ∧
    (writeTarget (.ksl r) 4 w s).spPhase = s.spPhase ∧ (writeTarget (.ksh r) 4 w s).spPhase = s.spPhase

/-! ## Scalar arithmetic (42_modarith.md) -/

/-- R201: MONTR on every 32-bit operand: u is -a/q mod 2^16, a' is exactly (a + u q) / 2^16 and lies in
[-32768, 36096]; RES is a' mod q, congruent to a 2^-16; RES2 is a'. Nothing else changes. -/
def Obligations.MontrReduces : Prop :=
  ∀ s : State, ∃ u a' : Int,
    0 ≤ u ∧ u < 65536 ∧ (s.arg2.toInt * 3327 - u) % 65536 = 0 ∧ a' * 65536 = s.arg2.toInt + u * 3329 ∧
    -32768 ≤ a' ∧ a' ≤ 36096 ∧ (a' % 3329 * 65536 - s.arg2.toInt) % 3329 = 0 ∧
    exec .montr s = .next { s with
      res := BitVec.ofInt 32 (a' % 3329), res2 := BitVec.ofInt 32 a', busy := false, done := true, cur := 0 }

/-- R202: FQMUL is the same reduction of the exact product of the two low halves, for every operand; a' then fits in 16
bits only up to 19713. -/
def Obligations.FqmulReducesProduct : Prop :=
  ∀ s : State, ∃ u a' : Int,
    let a := (s.arg2.extractLsb' 0 16).toInt * (s.arg3.extractLsb' 0 16).toInt
    0 ≤ u ∧ u < 65536 ∧ (a * 3327 - u) % 65536 = 0 ∧ a' * 65536 = a + u * 3329 ∧
    -16384 ≤ a' ∧ a' ≤ 19713 ∧ (a' % 3329 * 65536 - a) % 3329 = 0 ∧
    exec .fqmul s = .next { s with
      res := BitVec.ofInt 32 (a' % 3329), res2 := BitVec.ofInt 32 a', busy := false, done := true, cur := 0 }

/-- R203, R208: BRED on every 16-bit operand: RES is a mod q, RES2 the centred remainder in [-1664, 1664]. -/
def Obligations.BredReduces : Prop :=
  ∀ s : State, ∃ r : Int,
    -1664 ≤ r ∧ r ≤ 1664 ∧ ((s.arg2.extractLsb' 0 16).toInt - r) % 3329 = 0 ∧
    exec .bred s = .next { s with
      res := BitVec.ofInt 32 ((s.arg2.extractLsb' 0 16).toInt % 3329), res2 := BitVec.ofInt 32 r,
      busy := false, done := true, cur := 0 }

/-- R204, R205: DRED on every 64-bit operand, ARG3 the high word: RES is the Euclidean remainder and RES2 is 0. DCSUB gives
a mod q below 2q, and E_RANGE with RES and RES2 unchanged from 2q on. -/
def Obligations.DredAndDcsubReduce : Prop :=
  ∀ s : State,
    exec .dred s = .next { s with
      res := BitVec.ofInt 32 ((s.arg3 ++ s.arg2).toInt % 8380417), res2 := 0, busy := false, done := true, cur := 0 } ∧
    (s.arg2.toNat < 16760834 →
      exec .dcsub s = .next { s with
        res := BitVec.ofNat 32 (s.arg2.toNat % 8380417), res2 := 0, busy := false, done := true, cur := 0 }) ∧
    (16760834 ≤ s.arg2.toNat →
      exec .dcsub s = .next { s with busy := false, done := true, cur := 0, err := true, errcode := 4 })

/-! ## Polynomial ring (43_polynomial.md) -/

/-- R241: PLOAD in bounds: with every word below q, P[RD] is the 256 little-endian words, at any alignment, and nothing
else changes; with a word of q or more, E_RANGE. -/
def Obligations.PloadReadsPolynomial : Prop :=
  ∀ (rg : Ring) (rd : PReg) (s : State), argAddress s + 1024 ≤ s.cfg.bufBytes →
    let word := fun i : Nat => (s.buf.byte (argAddress s + 4 * i)).toNat +
      256 * (s.buf.byte (argAddress s + 4 * i + 1)).toNat + 65536 * (s.buf.byte (argAddress s + 4 * i + 2)).toNat +
      16777216 * (s.buf.byte (argAddress s + 4 * i + 3)).toNat
    ((∀ i < 256, word i < ringQ rg) →
      ∃ t, exec (.pload rg rd) s = .next t ∧ (∀ i < 256, (coef (t.readP rd) i).toNat = word i) ∧
        t = { s with p := s.p.set rd.val (t.readP rd) rd.isLt, busy := false, done := true, cur := 0 }) ∧
    (∀ i < 256, ringQ rg ≤ word i →
      exec (.pload rg rd) s =
        .next { s with busy := false, done := true, cur := 0, err := true, errcode := 4 })

/-- R242: PSTORE in bounds writes coefficient i as four little-endian bytes at ARG0 + 4i and leaves every other byte and
everything else. -/
def Obligations.PstoreWritesPolynomial : Prop :=
  ∀ (rs1 : PReg) (s : State), argAddress s + 1024 ≤ s.cfg.bufBytes →
    ∃ t, exec (.pstore rs1) s = .next t ∧
      t = { s with buf := t.buf, busy := false, done := true, cur := 0 } ∧
      (∀ i < 256, ∀ k < 4, t.buf.byte (argAddress s + 4 * i + k) =
        BitVec.ofNat 8 ((coef (s.readP rs1) i).toNat / 256 ^ k)) ∧
      ∀ x, (x < argAddress s ∨ argAddress s + 1024 ≤ x) → t.buf.byte x = s.buf.byte x

/-- R231, R241, R242: a canonical polynomial that is stored and loaded again, into any register, is unchanged. -/
def Obligations.PloadAfterPstoreRestores : Prop :=
  ∀ (rg : Ring) (rd rs1 : PReg) (s : State), argAddress s + 1024 ≤ s.cfg.bufBytes →
    (∀ i < 256, (coef (s.readP rs1) i).toNat < ringQ rg) →
    ∃ t u, exec (.pstore rs1) s = .next t ∧ exec (.pload rg rd) t = .next u ∧ u.readP rd = s.readP rs1

/-- R243, R244: NTT and INTT of a canonical source write the transform of the old source to the destination, which may be
the source, and change nothing else. -/
def Obligations.NttAndInttComplete : Prop :=
  ∀ (rg : Ring) (rd rs1 : PReg) (s : State), (∀ i < 256, (coef (s.readP rs1) i).toNat < ringQ rg) →
    exec (.ntt rg rd rs1) s = .next { s with
      p := s.p.set rd.val (nttRing rg (s.readP rs1)) rd.isLt, busy := false, done := true, cur := 0 } ∧
    exec (.intt rg rd rs1) s = .next { s with
      p := s.p.set rd.val (inttRing rg (s.readP rs1)) rd.isLt, busy := false, done := true, cur := 0 }

/-- R247, law 1: the transforms of each ring are inverse to each other on canonical polynomials. -/
def Obligations.TransformsRoundTrip : Prop :=
  ∀ (rg : Ring) (f : PolyReg), (∀ i < 256, (coef f i).toNat < ringQ rg) →
    inttRing rg (nttRing rg f) = f ∧ nttRing rg (inttRing rg f) = f

/-- R235 to R238: the transforms of the machine are the in-place loops of the rules' pseudocode, and the constants of the
last scaling are the inverses of 128 and 256. -/
def Obligations.TransformsEqualInPlaceLoops : Prop :=
  (∀ f : PolyReg, nttK f = nttKLoop f ∧ inttK f = inttKLoop f ∧ nttD f = nttDLoop f ∧ inttD f = inttDLoop f) ∧
  128 * 3303 % 3329 = 1 ∧ 256 * 8347681 % 8380417 = 1

/-- R247, law 4: NTT_D(f)[i] is the value of f at 1753^(2·brv8(i)+1). -/
def Obligations.NttDilithiumEvaluates : Prop :=
  ∀ f : PolyReg, (∀ i < 256, (coef f i).toNat < 8380417) → ∀ i < 256,
    (coef (nttD f) i).toNat = evalAt 8380417 f (1753 ^ (2 * bitRev 8 i + 1))

/-- R247, law 3: pair i of NTT_K(f) is f modulo X^2 - GK[i]. -/
def Obligations.NttKyberGivesResidues : Prop :=
  ∀ f : PolyReg, (∀ i < 256, (coef f i).toNat < 3329) → ∀ i < 128,
    (coef (nttK f) (2 * i)).toNat = residueAt 3329 f (gammaKyber i) 0 ∧
    (coef (nttK f) (2 * i + 1)).toNat = residueAt 3329 f (gammaKyber i) 1

/-- R247, law 2: the inverse transform of the product of two transforms is the product in Z_q[X]/(X^256 + 1). -/
def Obligations.NttProductIsNegacyclic : Prop :=
  ∀ (rg : Ring) (f g : PolyReg), (∀ i < 256, (coef f i).toNat < ringQ rg) → (∀ i < 256, (coef g i).toNat < ringQ rg) →
    ∀ k < 256,
      ((coef (inttRing rg (mulRing rg (nttRing rg f) (nttRing rg g))) k).toNat : Int) = negacyclic (ringQ rg) f g k

/-- R230: every result coefficient is canonical for q, whatever the input. -/
def Obligations.RingResultsAreCanonical : Prop :=
  ∀ (rg : Ring) (f g h : PolyReg), ∀ i < 256,
    (coef (nttRing rg f) i).toNat < ringQ rg ∧ (coef (inttRing rg f) i).toNat < ringQ rg ∧
    (coef (mulRing rg f g) i).toNat < ringQ rg ∧ (coef (addRing rg h (mulRing rg f g)) i).toNat < ringQ rg

/-- R239, R240, R245: PMUL of canonical sources writes the pairwise product (Kyber) or the coefficient-wise product
(Dilithium) of the old sources and changes nothing else. -/
def Obligations.PmulMultiplies : Prop :=
  ∀ (rg : Ring) (rd rs1 rs2 : PReg) (s : State),
    let a := fun i => (coef (s.readP rs1) i).toNat
    let b := fun i => (coef (s.readP rs2) i).toNat
    (∀ i < 256, a i < ringQ rg) → (∀ i < 256, b i < ringQ rg) →
    ∃ t, exec (.pmul rg rd rs1 rs2) s = .next t ∧
      t = { s with p := s.p.set rd.val (t.readP rd) rd.isLt, busy := false, done := true, cur := 0 } ∧
      (rg = .kyber → ∀ i < 128,
        (coef (t.readP rd) (2 * i)).toNat =
          (a (2 * i) * b (2 * i) + a (2 * i + 1) * b (2 * i + 1) * 17 ^ (2 * bitRev 7 i + 1)) % 3329 ∧
        (coef (t.readP rd) (2 * i + 1)).toNat = (a (2 * i) * b (2 * i + 1) + a (2 * i + 1) * b (2 * i)) % 3329) ∧
      (rg = .dilithium → ∀ i < 256, (coef (t.readP rd) i).toNat = a i * b i % 8380417)

/-- R246: PMAC of canonical sources adds the product of the old sources to the old destination, mod q, and changes
nothing else. -/
def Obligations.PmacAccumulates : Prop :=
  ∀ (rg : Ring) (rd rs1 rs2 : PReg) (s : State),
    (∀ i < 256, (coef (s.readP rd) i).toNat < ringQ rg) → (∀ i < 256, (coef (s.readP rs1) i).toNat < ringQ rg) →
    (∀ i < 256, (coef (s.readP rs2) i).toNat < ringQ rg) →
    ∃ t, exec (.pmac rg rd rs1 rs2) s = .next t ∧
      t = { s with p := s.p.set rd.val (t.readP rd) rd.isLt, busy := false, done := true, cur := 0 } ∧
      ∀ i < 256, (coef (t.readP rd) i).toNat =
        ((coef (s.readP rd) i).toNat + (coef (mulRing rg (s.readP rs1) (s.readP rs2)) i).toNat) % ringQ rg

/-- R230, R243 to R246, R305: a source coefficient of q or more (for PMAC, of the destination too) raises E_RANGE and
nothing is written; the destination of NTT, INTT and PMUL is not looked at. -/
def Obligations.NonCanonicalSourcesRaiseRange : Prop :=
  ∀ (rg : Ring) (rd rs1 rs2 : PReg) (s : State) (i : Nat), i < 256 →
    let refused : State := { s with busy := false, done := true, cur := 0, err := true, errcode := 4 }
    (ringQ rg ≤ (coef (s.readP rs1) i).toNat →
      exec (.ntt rg rd rs1) s = .next refused ∧ exec (.intt rg rd rs1) s = .next refused) ∧
    (ringQ rg ≤ (coef (s.readP rs1) i).toNat ∨ ringQ rg ≤ (coef (s.readP rs2) i).toNat →
      exec (.pmul rg rd rs1 rs2) s = .next refused) ∧
    (ringQ rg ≤ (coef (s.readP rd) i).toNat ∨ ringQ rg ≤ (coef (s.readP rs1) i).toNat ∨
        ringQ rg ≤ (coef (s.readP rs2) i).toNat →
      exec (.pmac rg rd rs1 rs2) s = .next refused)

/-- R88: the bounds check of every command that accesses BUF, on mathematical integers, raises E_BOUNDS before any write;
an access of no bytes is in bounds up to a = BUF_BYTES and accesses nothing. -/
def Obligations.BufferBoundsAreChecked : Prop :=
  ∀ (s : State) (rg : Ring) (r : PReg) (eta : Eta),
    let refused : State := { s with busy := false, done := true, cur := 0, err := true, errcode := 3 }
    (s.spPhase = 1 → s.cfg.bufBytes < argAddress s + argLength s → exec .sabsorb s = .next refused) ∧
    (s.spPhase = 2 → s.cfg.bufBytes < argAddress s + argLength s → exec .ssqueeze s = .next refused) ∧
    (s.cfg.bufBytes < argAddress s + 1024 →
      exec (.pload rg r) s = .next refused ∧ exec (.pstore r) s = .next refused) ∧
    (s.cfg.bufBytes < argAddress s + 64 * etaVal eta → exec (.cbd r eta) s = .next refused) ∧
    (argLength s = 0 → argAddress s ≤ s.cfg.bufBytes → s.buf.wf →
      (s.spPhase = 1 → exec .sabsorb s = .next { s with busy := false, done := true, cur := 0 }) ∧
      (s.spPhase = 2 → exec .ssqueeze s = .next { s with busy := false, done := true, cur := 0 }))

/-! ## Sampler and system (44_sampler.md, 45_system.md) -/

/-- R270, R271: CBD in bounds: coefficient i is x - y mod 3329, x the number of ones among the η bits from bit 2iη on, y
among the next η, bits least significant first; nothing else changes. -/
def Obligations.CbdSamples : Prop :=
  ∀ (rd : PReg) (eta : Eta) (s : State), argAddress s + 64 * etaVal eta ≤ s.cfg.bufBytes →
    let n := etaVal eta
    let bit := fun k : Nat => (s.buf.byte (argAddress s + k / 8)).getLsbD (k % 8)
    ∃ t, exec (.cbd rd eta) s = .next t ∧
      t = { s with p := s.p.set rd.val (t.readP rd) rd.isLt, busy := false, done := true, cur := 0 } ∧
      ∀ i < 256, ∃ x y : Nat, x ≤ n ∧ y ≤ n ∧
        x = ((List.range n).filter fun j => bit (2 * i * n + j)).length ∧
        y = ((List.range n).filter fun j => bit (2 * i * n + n + j)).length ∧
        ((coef (t.readP rd) i).toNat : Int) = ((x : Int) - (y : Int)) % 3329

/-- R290: WIPE zeroes KS, the sponge registers, P, BUF, the ARG registers, RES and RES2, from every state, and keeps ERR,
ERRCODE, HZ, IE and the CMD readback. The registers from NP on, which do not exist, hold 0 too (log 9). -/
def Obligations.WipeZeroizes : Prop :=
  ∀ s : State,
    exec .wipe s = .next { s with
      ks := Vector.replicate 25 0, spPhase := 0, spRate := 0, spPos := 0,
      p := Vector.replicate 16 (Vector.replicate 256 0), buf := [],
      arg0 := 0, arg1 := 0, arg2 := 0, arg3 := 0, res := 0, res2 := 0, busy := false, done := true, cur := 0 }

/-! ## The host's accesses (10_state.md, 20_memory.md, 70_reset_and_hazards.md) -/

/-- R82 to R84, R314: an access of a wrong size below 0x8000, or misaligned anywhere, or of another size than 8, 16 or 32
bits (log 8), is not performed: the answer is HOST_BUS_ERROR, in the model's own field `resp` (log 6), and nothing else
changes, busy or not. -/
def Obligations.MalformedAccessIsBusError : Prop :=
  ∀ (s : State) (off size : Nat) (v : Word), off < 65536 →
    ((off < 0x8000 ∧ ¬ (size = 4 ∧ off % 4 = 0)) ∨
      (0x8000 ≤ off ∧ ¬ ((size = 1 ∨ size = 2 ∨ size = 4) ∧ off % size = 0))) →
    hostStep (.read (s.cfg.coreBase + off) size) s = { s with resp := some (.fault .hostBusError) } ∧
    hostStep (.write (s.cfg.coreBase + off) size v) s = { s with resp := some (.fault .hostBusError) }

/-- R350: every access while BUSY = 1. A malformed one, of another size too (log 8), is a bus error and sets no HZ. Reads of
ID, CTRL, STATUS and CMD and writes of CTRL and STATUS are performed; every other write is dropped, and acknowledged (log 6,
DEDUCED), and every other read returns some value; both set HZ. `resp` and `freeCount` are the model's own (logs 6 and 5). -/
def Obligations.BusyAccessesAreDroppedAndFlagged : Prop :=
  ∀ (s : State) (off size : Nat) (v : Word), s.busy = true → off < 65536 →
    let reading := hostStep (.read (s.cfg.coreBase + off) size) s
    let writing := hostStep (.write (s.cfg.coreBase + off) size v) s
    let wellFormed := (off < 0x8000 ∧ size = 4 ∧ off % 4 = 0) ∨
      (0x8000 ≤ off ∧ (size = 1 ∨ size = 2 ∨ size = 4) ∧ off % size = 0)
    (¬ wellFormed → reading = { s with resp := some (.fault .hostBusError) } ∧
      writing = { s with resp := some (.fault .hostBusError) }) ∧
    (wellFormed →
      (off = 0x0 → reading = { s with resp := some (.data 0x50430700) }) ∧
      (off = 0x4 → reading = { s with resp := some (.data (ctrlWord s)) }) ∧
      (off = 0x8 → reading = { s with resp := some (.data (statusWord s)) }) ∧
      (off = 0xC → reading = { s with resp := some (.data s.cmd) }) ∧
      (off ∉ [0x0, 0x4, 0x8, 0xC] →
        ∃ x n, reading = { s with hz := true, resp := some (.data x), freeCount := n }) ∧
      (off = 0x4 → writing = { s.writeCtrl v with resp := some .ack }) ∧
      (off = 0x8 → writing = { s.clearStatus v with resp := some .ack }) ∧
      (off ∉ [0x4, 0x8] → writing = { s with hz := true, resp := some .ack }))

/-- R43, R90, R303: a host write to STATUS clears the flags it has ones for, ERRCODE with ERR, busy or not; a host write
to CMD while idle accepts the command, which clears DONE and keeps ERR, ERRCODE and HZ. `resp` is the model's own
(log 6). -/
def Obligations.StatusAndCmdWrites : Prop :=
  ∀ (s : State) (v : Word),
    hostStep (.write (s.cfg.coreBase + 8) 4 v) s = { s with
      done := s.done && !v.getLsbD 1
      err := s.err && !v.getLsbD 2
      errcode := if v.getLsbD 2 then 0 else s.errcode
      hz := s.hz && !v.getLsbD 3
      resp := some .ack } ∧
    (s.busy = false →
      hostStep (.write (s.cfg.coreBase + 0xC) 4 v) s =
        { s with cur := v, cmd := v, busy := true, done := false, resp := some .ack })

/-- R341 to R343: a host write to CTRL with SRST set is one step that gives every piece of state its reset value,
whatever IE is in the write and whether a command is in flight, which then never completes; a power-on reset does the same;
without SRST the write sets IE only. That a reset leaves the configuration, `env`, `resp` and `freeCount` is the model's own
choice (log 14), and so is the answer to the write (log 6). -/
def Obligations.SoftResetWinsAndAborts : Prop :=
  ∀ (s : State) (v : Word) (rest : List Event),
    (v.getLsbD 1 = true →
      hostStep (.write (s.cfg.coreBase + 4) 4 v) s = { State.reset with
        cfg := s.cfg, env := s.env, resp := some .ack, freeCount := s.freeCount }) ∧
    step { s with env := .powerOnReset :: rest } = .next { State.reset with
      cfg := s.cfg, env := rest, resp := s.resp, freeCount := s.freeCount } ∧
    (v.getLsbD 1 = false →
      hostStep (.write (s.cfg.coreBase + 4) 4 v) s = { s with ie := v.getLsbD 0, resp := some .ack })

/-- R41, R42, R44, R49: where each field stands in the words of CTRL, STATUS and SPONGE, the other bits reading 0, and
the interrupt output. -/
def Obligations.RegisterWordsHaveTheirFields : Prop :=
  ∀ s : State,
    (statusWord s).getLsbD 0 = s.busy ∧ (statusWord s).getLsbD 1 = s.done ∧ (statusWord s).getLsbD 2 = s.err ∧
    (statusWord s).getLsbD 3 = s.hz ∧ (statusWord s).extractLsb' 4 4 = 0 ∧
    (statusWord s).extractLsb' 8 4 = s.errcode ∧ (statusWord s).extractLsb' 12 20 = 0 ∧
    (ctrlWord s).getLsbD 0 = s.ie ∧ (ctrlWord s).extractLsb' 1 31 = 0 ∧
    (spongeWord s).extractLsb' 0 8 = s.spPos ∧ (spongeWord s).extractLsb' 8 8 = s.spRate ∧
    (spongeWord s).extractLsb' 16 2 = s.spPhase ∧ (spongeWord s).extractLsb' 18 14 = 0 ∧
    irq s = (s.ie && s.done)

/-- R83, R86: while idle, a write of 1, 2 or 4 bytes to BUF stores them little-endian and leaves every other byte and
everything else; a read of the place returns them, zero-extended (log 6, as `resp` is). -/
def Obligations.BufWindowReadsAndWrites : Prop :=
  ∀ (s : State) (a size : Nat) (v : Word), s.busy = false → (size = 1 ∨ size = 2 ∨ size = 4) → a % size = 0 →
    a + size ≤ s.cfg.bufBytes → s.cfg.bufBytes ≤ 0x8000 →
    let t := hostStep (.write (s.cfg.coreBase + (0x8000 + a)) size v) s
    t = { s with buf := t.buf, resp := some .ack } ∧
    (∀ k < size, t.buf.byte (a + k) = BitVec.ofNat 8 (v.toNat / 256 ^ k)) ∧
    (∀ x, (x < a ∨ a + size ≤ x) → t.buf.byte x = s.buf.byte x) ∧
    hostStep (.read (s.cfg.coreBase + (0x8000 + a)) size) t =
      { t with resp := some (.data (BitVec.ofNat 32 (v.toNat % 256 ^ size))) }

/-- R45: while idle, the KS window at 0x100 + 8i and 0x104 + 8i reads and replaces the low and the high half of lane i
and changes nothing else (`resp` is the model's own, log 6). -/
def Obligations.KeccakWindowReadsAndWrites : Prop :=
  ∀ (s : State) (i : Nat) (v : Word), s.busy = false → i < 25 →
    let low := hostStep (.write (s.cfg.coreBase + (0x100 + 8 * i)) 4 v) s
    let high := hostStep (.write (s.cfg.coreBase + (0x104 + 8 * i)) 4 v) s
    low = { s with ks := low.ks, resp := some .ack } ∧ high = { s with ks := high.ks, resp := some .ack } ∧
    lane low.ks i = (lane s.ks i).extractLsb' 32 32 ++ v ∧ lane high.ks i = v ++ (lane s.ks i).extractLsb' 0 32 ∧
    (∀ j < 25, j ≠ i → lane low.ks j = lane s.ks j ∧ lane high.ks j = lane s.ks j) ∧
    hostStep (.read (s.cfg.coreBase + (0x100 + 8 * i)) 4) s =
      { s with resp := some (.data ((lane s.ks i).extractLsb' 0 32)) } ∧
    hostStep (.read (s.cfg.coreBase + (0x104 + 8 * i)) 4) s =
      { s with resp := some (.data ((lane s.ks i).extractLsb' 32 32)) }

/-- R43, R51, R83, R85: while idle, the operand registers take what is written, the read-only registers and the reserved
offsets ignore it, and each register reads its value, a reserved offset 0. The reserved offsets above BUF take every aligned
size. `resp` is the model's own (log 6). -/
def Obligations.IdleRegisterAccess : Prop :=
  ∀ (s : State) (v : Word), s.busy = false →
    let write := fun size off => hostStep (.write (s.cfg.coreBase + off) size v) s
    let read := fun size off => hostStep (.read (s.cfg.coreBase + off) size) s
    let w := write 4
    let r := read 4
    w 0x10 = { s with arg0 := v, resp := some .ack } ∧ w 0x14 = { s with arg1 := v, resp := some .ack } ∧
    w 0x18 = { s with arg2 := v, resp := some .ack } ∧ w 0x1C = { s with arg3 := v, resp := some .ack } ∧
    (∀ off ∈ [0x0, 0x20, 0x24, 0x28], w off = { s with resp := some .ack }) ∧
    r 0x0 = { s with resp := some (.data 0x50430700) } ∧ r 0x4 = { s with resp := some (.data (ctrlWord s)) } ∧
    r 0x8 = { s with resp := some (.data (statusWord s)) } ∧ r 0xC = { s with resp := some (.data s.cmd) } ∧
    r 0x10 = { s with resp := some (.data s.arg0) } ∧ r 0x14 = { s with resp := some (.data s.arg1) } ∧
    r 0x18 = { s with resp := some (.data s.arg2) } ∧ r 0x1C = { s with resp := some (.data s.arg3) } ∧
    r 0x20 = { s with resp := some (.data s.res) } ∧ r 0x24 = { s with resp := some (.data s.res2) } ∧
    r 0x28 = { s with resp := some (.data (spongeWord s)) } ∧
    (∀ off, off % 4 = 0 → ((0x2C ≤ off ∧ off < 0x100) ∨ (0x1C8 ≤ off ∧ off < 0x8000)) →
      w off = { s with resp := some .ack } ∧ r off = { s with resp := some (.data 0) }) ∧
    ∀ off size, (size = 1 ∨ size = 2 ∨ size = 4) → off % size = 0 → 0x8000 + s.cfg.bufBytes ≤ off → off < 0x10000 →
      write size off = { s with resp := some .ack } ∧ read size off = { s with resp := some (.data 0) }

/-- R309, R356: irq rises with a completion exactly when IE is set, and when the host sets IE while DONE = 1; it falls when a
command is accepted, when the host clears DONE or IE, and at reset. -/
def Obligations.IrqFollowsDoneAndEnable : Prop :=
  ∀ (i : Instr) (s t : State) (w v : Word),
    (exec i s = .next t → irq t = s.ie) ∧ irq (s.accept w) = false ∧
    (v.getLsbD 1 = true → irq (s.clearStatus v) = false) ∧
    (v.getLsbD 0 = true → v.getLsbD 1 = false → irq (s.writeCtrl v) = s.done) ∧
    (v.getLsbD 0 = false → irq (s.writeCtrl v) = false) ∧ irq s.blockReset = false

/-- The representation of BUF (log 16): two buffers in canonical form that read alike at every address are equal. -/
def Obligations.CanonicalBuffersReadingAlikeAreEqual : Prop :=
  ∀ m n : Memory, m.wf → n.wf → (∀ a, m.byte a = n.byte a) → m = n
end

