-- ==== Sys2Proof/Laws/Arrays.lean ====
section
/-! SUPPORT. Reading what `mkPoly` and `mkLanes` build, register by register and lane by lane. -/

namespace Sys2Proof.Machine

@[simp] theorem coef_mkPoly (g : Nat → Word) (i : Nat) : coef (mkPoly g) i = if i < 256 then g i else 0 := by
  by_cases h : i < 256 <;> simp [coef, mkPoly, Vector.toList, h, List.getD_eq_getElem?_getD]

@[simp] theorem lane_mkLanes (g : Nat → Lane) (i : Nat) : lane (mkLanes g) i = if i < 25 then g i else 0 := by
  by_cases h : i < 25 <;> simp [lane, mkLanes, Vector.toList, h, List.getD_eq_getElem?_getD]

theorem coef_eq_getElem (f : PolyReg) (i : Nat) (h : i < 256) : coef f i = f[i] := by
  simp [coef, List.getD_eq_getElem?_getD, h]

theorem lane_eq_getElem (A : KeccakState) (i : Nat) (h : i < 25) : lane A i = A[i] := by
  simp [lane, List.getD_eq_getElem?_getD, h]

/-- A coefficient number from 256 on reads 0. -/
theorem coef_of_le (f : PolyReg) (i : Nat) (h : 256 ≤ i) : coef f i = 0 := by
  simp [coef, List.getD_eq_getElem?_getD, h]

/-- A lane number from 25 on reads 0. -/
theorem lane_of_le (A : KeccakState) (i : Nat) (h : 25 ≤ i) : lane A i = 0 := by
  simp [lane, List.getD_eq_getElem?_getD, h]

/-- Two polynomials with the same coefficients are equal. -/
theorem poly_ext {f g : PolyReg} (h : ∀ i < 256, coef f i = coef g i) : f = g := by
  apply Vector.ext
  intro i hi
  have := h i hi
  rwa [coef_eq_getElem f i hi, coef_eq_getElem g i hi] at this

/-- Two Keccak states with the same lanes are equal. -/
theorem lanes_ext {A B : KeccakState} (h : ∀ i < 25, lane A i = lane B i) : A = B := by
  apply Vector.ext
  intro i hi
  have := h i hi
  rwa [lane_eq_getElem A i hi, lane_eq_getElem B i hi] at this

@[simp] theorem coef_zeroPoly (i : Nat) : coef zeroPoly i = 0 := by
  by_cases h : i < 256
  · simp [coef_eq_getElem _ _ h, zeroPoly]
  · exact coef_of_le _ _ (by omega)

@[simp] theorem lane_zeroLanes (i : Nat) : lane zeroLanes i = 0 := by
  by_cases h : i < 25
  · simp [lane_eq_getElem _ _ h, zeroLanes]
  · exact lane_of_le _ _ (by omega)

/-- `Canon` coefficient by coefficient (R231). -/
theorem canon_iff (f : PolyReg) (q : Nat) : canon f q = true ↔ ∀ i < 256, (coef f i).toNat < q := by
  simp only [canon, List.all_eq_true, decide_eq_true_eq]
  constructor
  · intro h i hi
    rw [coef_eq_getElem f i hi]
    exact h _ (by simp)
  · intro h c hc
    obtain ⟨i, hi, rfl⟩ := List.getElem_of_mem hc
    have hi' : i < 256 := by simpa using hi
    simpa [coef_eq_getElem f i hi'] using h i hi'

/-- Reading the register file after a write (R36: registers do not alias). -/
theorem readP_writeP (s : State) (r k : PReg) (f : PolyReg) :
    (s.writeP r f).readP k = if k = r then f else s.readP k := by
  simp only [State.readP, State.writeP, Vector.getElem_set]
  by_cases h : k = r
  · simp [h]
  · have h' : r.val ≠ k.val := fun e => h (Fin.ext e.symm)
    simp [h, h']

/-- The register file written at r with f, read at k. -/
theorem readP_set (s : State) (r k : PReg) (f : PolyReg) :
    State.readP { s with p := s.p.set r.val f r.isLt } k = if k = r then f else s.readP k :=
  readP_writeP s r k f

theorem laneXY_mkLanesXY (g : Nat → Nat → Lane) (x y : Nat) : laneXY (mkLanesXY g) x y = g (x % 5) (y % 5) := by
  have hx : x % 5 < 5 := Nat.mod_lt _ (by decide)
  have hy : y % 5 < 5 := Nat.mod_lt _ (by decide)
  have hlt : x % 5 + 5 * (y % 5) < 25 := by omega
  have h1 : (x % 5 + 5 * (y % 5)) % 5 = x % 5 := by omega
  have h2 : (x % 5 + 5 * (y % 5)) / 5 = y % 5 := by omega
  simp [laneXY, mkLanesXY, hlt, h1, h2]

end Sys2Proof.Machine
end

