-- ==== Sys2Proof/Laws/State.lean ====
section
/-! SUPPORT. One lemma for each field of State and each named update of it: later proofs never unfold a record update. -/

namespace Sys2Proof.Machine

/-! ## `State.complete` -/

@[simp] theorem complete_cfg (s : State) : (s.complete).cfg = s.cfg := rfl
@[simp] theorem complete_ks (s : State) : (s.complete).ks = s.ks := rfl
@[simp] theorem complete_spPhase (s : State) : (s.complete).spPhase = s.spPhase := rfl
@[simp] theorem complete_spRate (s : State) : (s.complete).spRate = s.spRate := rfl
@[simp] theorem complete_spPos (s : State) : (s.complete).spPos = s.spPos := rfl
@[simp] theorem complete_p (s : State) : (s.complete).p = s.p := rfl
@[simp] theorem complete_buf (s : State) : (s.complete).buf = s.buf := rfl
@[simp] theorem complete_arg0 (s : State) : (s.complete).arg0 = s.arg0 := rfl
@[simp] theorem complete_arg1 (s : State) : (s.complete).arg1 = s.arg1 := rfl
@[simp] theorem complete_arg2 (s : State) : (s.complete).arg2 = s.arg2 := rfl
@[simp] theorem complete_arg3 (s : State) : (s.complete).arg3 = s.arg3 := rfl
@[simp] theorem complete_res (s : State) : (s.complete).res = s.res := rfl
@[simp] theorem complete_res2 (s : State) : (s.complete).res2 = s.res2 := rfl
@[simp] theorem complete_ie (s : State) : (s.complete).ie = s.ie := rfl
@[simp] theorem complete_busy (s : State) : (s.complete).busy = false := rfl
@[simp] theorem complete_done (s : State) : (s.complete).done = true := rfl
@[simp] theorem complete_err (s : State) : (s.complete).err = s.err := rfl
@[simp] theorem complete_hz (s : State) : (s.complete).hz = s.hz := rfl
@[simp] theorem complete_errcode (s : State) : (s.complete).errcode = s.errcode := rfl
@[simp] theorem complete_cmd (s : State) : (s.complete).cmd = s.cmd := rfl
@[simp] theorem complete_cur (s : State) : (s.complete).cur = 0 := rfl
@[simp] theorem complete_env (s : State) : (s.complete).env = s.env := rfl
@[simp] theorem complete_resp (s : State) : (s.complete).resp = s.resp := rfl
@[simp] theorem complete_freeCount (s : State) : (s.complete).freeCount = s.freeCount := rfl

/-! ## `State.report` -/

@[simp] theorem report_cfg (e : Err) (s : State) : (s.report e).cfg = s.cfg := rfl
@[simp] theorem report_ks (e : Err) (s : State) : (s.report e).ks = s.ks := rfl
@[simp] theorem report_spPhase (e : Err) (s : State) : (s.report e).spPhase = s.spPhase := rfl
@[simp] theorem report_spRate (e : Err) (s : State) : (s.report e).spRate = s.spRate := rfl
@[simp] theorem report_spPos (e : Err) (s : State) : (s.report e).spPos = s.spPos := rfl
@[simp] theorem report_p (e : Err) (s : State) : (s.report e).p = s.p := rfl
@[simp] theorem report_buf (e : Err) (s : State) : (s.report e).buf = s.buf := rfl
@[simp] theorem report_arg0 (e : Err) (s : State) : (s.report e).arg0 = s.arg0 := rfl
@[simp] theorem report_arg1 (e : Err) (s : State) : (s.report e).arg1 = s.arg1 := rfl
@[simp] theorem report_arg2 (e : Err) (s : State) : (s.report e).arg2 = s.arg2 := rfl
@[simp] theorem report_arg3 (e : Err) (s : State) : (s.report e).arg3 = s.arg3 := rfl
@[simp] theorem report_res (e : Err) (s : State) : (s.report e).res = s.res := rfl
@[simp] theorem report_res2 (e : Err) (s : State) : (s.report e).res2 = s.res2 := rfl
@[simp] theorem report_ie (e : Err) (s : State) : (s.report e).ie = s.ie := rfl
@[simp] theorem report_busy (e : Err) (s : State) : (s.report e).busy = s.busy := rfl
@[simp] theorem report_done (e : Err) (s : State) : (s.report e).done = s.done := rfl
@[simp] theorem report_err (e : Err) (s : State) : (s.report e).err = true := rfl
@[simp] theorem report_hz (e : Err) (s : State) : (s.report e).hz = s.hz := rfl
@[simp] theorem report_errcode (e : Err) (s : State) : (s.report e).errcode = e.code := rfl
@[simp] theorem report_cmd (e : Err) (s : State) : (s.report e).cmd = s.cmd := rfl
@[simp] theorem report_cur (e : Err) (s : State) : (s.report e).cur = s.cur := rfl
@[simp] theorem report_env (e : Err) (s : State) : (s.report e).env = s.env := rfl
@[simp] theorem report_resp (e : Err) (s : State) : (s.report e).resp = s.resp := rfl
@[simp] theorem report_freeCount (e : Err) (s : State) : (s.report e).freeCount = s.freeCount := rfl

/-! ## `State.fail` -/

@[simp] theorem fail_cfg (e : Err) (s : State) : (s.fail e).cfg = s.cfg := rfl
@[simp] theorem fail_ks (e : Err) (s : State) : (s.fail e).ks = s.ks := rfl
@[simp] theorem fail_spPhase (e : Err) (s : State) : (s.fail e).spPhase = s.spPhase := rfl
@[simp] theorem fail_spRate (e : Err) (s : State) : (s.fail e).spRate = s.spRate := rfl
@[simp] theorem fail_spPos (e : Err) (s : State) : (s.fail e).spPos = s.spPos := rfl
@[simp] theorem fail_p (e : Err) (s : State) : (s.fail e).p = s.p := rfl
@[simp] theorem fail_buf (e : Err) (s : State) : (s.fail e).buf = s.buf := rfl
@[simp] theorem fail_arg0 (e : Err) (s : State) : (s.fail e).arg0 = s.arg0 := rfl
@[simp] theorem fail_arg1 (e : Err) (s : State) : (s.fail e).arg1 = s.arg1 := rfl
@[simp] theorem fail_arg2 (e : Err) (s : State) : (s.fail e).arg2 = s.arg2 := rfl
@[simp] theorem fail_arg3 (e : Err) (s : State) : (s.fail e).arg3 = s.arg3 := rfl
@[simp] theorem fail_res (e : Err) (s : State) : (s.fail e).res = s.res := rfl
@[simp] theorem fail_res2 (e : Err) (s : State) : (s.fail e).res2 = s.res2 := rfl
@[simp] theorem fail_ie (e : Err) (s : State) : (s.fail e).ie = s.ie := rfl
@[simp] theorem fail_busy (e : Err) (s : State) : (s.fail e).busy = false := rfl
@[simp] theorem fail_done (e : Err) (s : State) : (s.fail e).done = true := rfl
@[simp] theorem fail_err (e : Err) (s : State) : (s.fail e).err = true := rfl
@[simp] theorem fail_hz (e : Err) (s : State) : (s.fail e).hz = s.hz := rfl
@[simp] theorem fail_errcode (e : Err) (s : State) : (s.fail e).errcode = e.code := rfl
@[simp] theorem fail_cmd (e : Err) (s : State) : (s.fail e).cmd = s.cmd := rfl
@[simp] theorem fail_cur (e : Err) (s : State) : (s.fail e).cur = 0 := rfl
@[simp] theorem fail_env (e : Err) (s : State) : (s.fail e).env = s.env := rfl
@[simp] theorem fail_resp (e : Err) (s : State) : (s.fail e).resp = s.resp := rfl
@[simp] theorem fail_freeCount (e : Err) (s : State) : (s.fail e).freeCount = s.freeCount := rfl

/-! ## `State.accept` -/

@[simp] theorem accept_cfg (w : Word) (s : State) : (s.accept w).cfg = s.cfg := rfl
@[simp] theorem accept_ks (w : Word) (s : State) : (s.accept w).ks = s.ks := rfl
@[simp] theorem accept_spPhase (w : Word) (s : State) : (s.accept w).spPhase = s.spPhase := rfl
@[simp] theorem accept_spRate (w : Word) (s : State) : (s.accept w).spRate = s.spRate := rfl
@[simp] theorem accept_spPos (w : Word) (s : State) : (s.accept w).spPos = s.spPos := rfl
@[simp] theorem accept_p (w : Word) (s : State) : (s.accept w).p = s.p := rfl
@[simp] theorem accept_buf (w : Word) (s : State) : (s.accept w).buf = s.buf := rfl
@[simp] theorem accept_arg0 (w : Word) (s : State) : (s.accept w).arg0 = s.arg0 := rfl
@[simp] theorem accept_arg1 (w : Word) (s : State) : (s.accept w).arg1 = s.arg1 := rfl
@[simp] theorem accept_arg2 (w : Word) (s : State) : (s.accept w).arg2 = s.arg2 := rfl
@[simp] theorem accept_arg3 (w : Word) (s : State) : (s.accept w).arg3 = s.arg3 := rfl
@[simp] theorem accept_res (w : Word) (s : State) : (s.accept w).res = s.res := rfl
@[simp] theorem accept_res2 (w : Word) (s : State) : (s.accept w).res2 = s.res2 := rfl
@[simp] theorem accept_ie (w : Word) (s : State) : (s.accept w).ie = s.ie := rfl
@[simp] theorem accept_busy (w : Word) (s : State) : (s.accept w).busy = true := rfl
@[simp] theorem accept_done (w : Word) (s : State) : (s.accept w).done = false := rfl
@[simp] theorem accept_err (w : Word) (s : State) : (s.accept w).err = s.err := rfl
@[simp] theorem accept_hz (w : Word) (s : State) : (s.accept w).hz = s.hz := rfl
@[simp] theorem accept_errcode (w : Word) (s : State) : (s.accept w).errcode = s.errcode := rfl
@[simp] theorem accept_cmd (w : Word) (s : State) : (s.accept w).cmd = w := rfl
@[simp] theorem accept_cur (w : Word) (s : State) : (s.accept w).cur = w := rfl
@[simp] theorem accept_env (w : Word) (s : State) : (s.accept w).env = s.env := rfl
@[simp] theorem accept_resp (w : Word) (s : State) : (s.accept w).resp = s.resp := rfl
@[simp] theorem accept_freeCount (w : Word) (s : State) : (s.accept w).freeCount = s.freeCount := rfl

/-! ## `State.setHz` -/

@[simp] theorem setHz_cfg (s : State) : (s.setHz).cfg = s.cfg := rfl
@[simp] theorem setHz_ks (s : State) : (s.setHz).ks = s.ks := rfl
@[simp] theorem setHz_spPhase (s : State) : (s.setHz).spPhase = s.spPhase := rfl
@[simp] theorem setHz_spRate (s : State) : (s.setHz).spRate = s.spRate := rfl
@[simp] theorem setHz_spPos (s : State) : (s.setHz).spPos = s.spPos := rfl
@[simp] theorem setHz_p (s : State) : (s.setHz).p = s.p := rfl
@[simp] theorem setHz_buf (s : State) : (s.setHz).buf = s.buf := rfl
@[simp] theorem setHz_arg0 (s : State) : (s.setHz).arg0 = s.arg0 := rfl
@[simp] theorem setHz_arg1 (s : State) : (s.setHz).arg1 = s.arg1 := rfl
@[simp] theorem setHz_arg2 (s : State) : (s.setHz).arg2 = s.arg2 := rfl
@[simp] theorem setHz_arg3 (s : State) : (s.setHz).arg3 = s.arg3 := rfl
@[simp] theorem setHz_res (s : State) : (s.setHz).res = s.res := rfl
@[simp] theorem setHz_res2 (s : State) : (s.setHz).res2 = s.res2 := rfl
@[simp] theorem setHz_ie (s : State) : (s.setHz).ie = s.ie := rfl
@[simp] theorem setHz_busy (s : State) : (s.setHz).busy = s.busy := rfl
@[simp] theorem setHz_done (s : State) : (s.setHz).done = s.done := rfl
@[simp] theorem setHz_err (s : State) : (s.setHz).err = s.err := rfl
@[simp] theorem setHz_hz (s : State) : (s.setHz).hz = true := rfl
@[simp] theorem setHz_errcode (s : State) : (s.setHz).errcode = s.errcode := rfl
@[simp] theorem setHz_cmd (s : State) : (s.setHz).cmd = s.cmd := rfl
@[simp] theorem setHz_cur (s : State) : (s.setHz).cur = s.cur := rfl
@[simp] theorem setHz_env (s : State) : (s.setHz).env = s.env := rfl
@[simp] theorem setHz_resp (s : State) : (s.setHz).resp = s.resp := rfl
@[simp] theorem setHz_freeCount (s : State) : (s.setHz).freeCount = s.freeCount := rfl

/-! ## `State.writeP` -/

@[simp] theorem writeP_cfg (r : PReg) (f : PolyReg) (s : State) : (s.writeP r f).cfg = s.cfg := rfl
@[simp] theorem writeP_ks (r : PReg) (f : PolyReg) (s : State) : (s.writeP r f).ks = s.ks := rfl
@[simp] theorem writeP_spPhase (r : PReg) (f : PolyReg) (s : State) : (s.writeP r f).spPhase = s.spPhase := rfl
@[simp] theorem writeP_spRate (r : PReg) (f : PolyReg) (s : State) : (s.writeP r f).spRate = s.spRate := rfl
@[simp] theorem writeP_spPos (r : PReg) (f : PolyReg) (s : State) : (s.writeP r f).spPos = s.spPos := rfl
@[simp] theorem writeP_p (r : PReg) (f : PolyReg) (s : State) : (s.writeP r f).p = s.p.set r.val f r.isLt := rfl
@[simp] theorem writeP_buf (r : PReg) (f : PolyReg) (s : State) : (s.writeP r f).buf = s.buf := rfl
@[simp] theorem writeP_arg0 (r : PReg) (f : PolyReg) (s : State) : (s.writeP r f).arg0 = s.arg0 := rfl
@[simp] theorem writeP_arg1 (r : PReg) (f : PolyReg) (s : State) : (s.writeP r f).arg1 = s.arg1 := rfl
@[simp] theorem writeP_arg2 (r : PReg) (f : PolyReg) (s : State) : (s.writeP r f).arg2 = s.arg2 := rfl
@[simp] theorem writeP_arg3 (r : PReg) (f : PolyReg) (s : State) : (s.writeP r f).arg3 = s.arg3 := rfl
@[simp] theorem writeP_res (r : PReg) (f : PolyReg) (s : State) : (s.writeP r f).res = s.res := rfl
@[simp] theorem writeP_res2 (r : PReg) (f : PolyReg) (s : State) : (s.writeP r f).res2 = s.res2 := rfl
@[simp] theorem writeP_ie (r : PReg) (f : PolyReg) (s : State) : (s.writeP r f).ie = s.ie := rfl
@[simp] theorem writeP_busy (r : PReg) (f : PolyReg) (s : State) : (s.writeP r f).busy = s.busy := rfl
@[simp] theorem writeP_done (r : PReg) (f : PolyReg) (s : State) : (s.writeP r f).done = s.done := rfl
@[simp] theorem writeP_err (r : PReg) (f : PolyReg) (s : State) : (s.writeP r f).err = s.err := rfl
@[simp] theorem writeP_hz (r : PReg) (f : PolyReg) (s : State) : (s.writeP r f).hz = s.hz := rfl
@[simp] theorem writeP_errcode (r : PReg) (f : PolyReg) (s : State) : (s.writeP r f).errcode = s.errcode := rfl
@[simp] theorem writeP_cmd (r : PReg) (f : PolyReg) (s : State) : (s.writeP r f).cmd = s.cmd := rfl
@[simp] theorem writeP_cur (r : PReg) (f : PolyReg) (s : State) : (s.writeP r f).cur = s.cur := rfl
@[simp] theorem writeP_env (r : PReg) (f : PolyReg) (s : State) : (s.writeP r f).env = s.env := rfl
@[simp] theorem writeP_resp (r : PReg) (f : PolyReg) (s : State) : (s.writeP r f).resp = s.resp := rfl
@[simp] theorem writeP_freeCount (r : PReg) (f : PolyReg) (s : State) : (s.writeP r f).freeCount = s.freeCount := rfl

/-! ## `State.writeRes` -/

@[simp] theorem writeRes_cfg (a b : Word) (s : State) : (s.writeRes a b).cfg = s.cfg := rfl
@[simp] theorem writeRes_ks (a b : Word) (s : State) : (s.writeRes a b).ks = s.ks := rfl
@[simp] theorem writeRes_spPhase (a b : Word) (s : State) : (s.writeRes a b).spPhase = s.spPhase := rfl
@[simp] theorem writeRes_spRate (a b : Word) (s : State) : (s.writeRes a b).spRate = s.spRate := rfl
@[simp] theorem writeRes_spPos (a b : Word) (s : State) : (s.writeRes a b).spPos = s.spPos := rfl
@[simp] theorem writeRes_p (a b : Word) (s : State) : (s.writeRes a b).p = s.p := rfl
@[simp] theorem writeRes_buf (a b : Word) (s : State) : (s.writeRes a b).buf = s.buf := rfl
@[simp] theorem writeRes_arg0 (a b : Word) (s : State) : (s.writeRes a b).arg0 = s.arg0 := rfl
@[simp] theorem writeRes_arg1 (a b : Word) (s : State) : (s.writeRes a b).arg1 = s.arg1 := rfl
@[simp] theorem writeRes_arg2 (a b : Word) (s : State) : (s.writeRes a b).arg2 = s.arg2 := rfl
@[simp] theorem writeRes_arg3 (a b : Word) (s : State) : (s.writeRes a b).arg3 = s.arg3 := rfl
@[simp] theorem writeRes_res (a b : Word) (s : State) : (s.writeRes a b).res = a := rfl
@[simp] theorem writeRes_res2 (a b : Word) (s : State) : (s.writeRes a b).res2 = b := rfl
@[simp] theorem writeRes_ie (a b : Word) (s : State) : (s.writeRes a b).ie = s.ie := rfl
@[simp] theorem writeRes_busy (a b : Word) (s : State) : (s.writeRes a b).busy = s.busy := rfl
@[simp] theorem writeRes_done (a b : Word) (s : State) : (s.writeRes a b).done = s.done := rfl
@[simp] theorem writeRes_err (a b : Word) (s : State) : (s.writeRes a b).err = s.err := rfl
@[simp] theorem writeRes_hz (a b : Word) (s : State) : (s.writeRes a b).hz = s.hz := rfl
@[simp] theorem writeRes_errcode (a b : Word) (s : State) : (s.writeRes a b).errcode = s.errcode := rfl
@[simp] theorem writeRes_cmd (a b : Word) (s : State) : (s.writeRes a b).cmd = s.cmd := rfl
@[simp] theorem writeRes_cur (a b : Word) (s : State) : (s.writeRes a b).cur = s.cur := rfl
@[simp] theorem writeRes_env (a b : Word) (s : State) : (s.writeRes a b).env = s.env := rfl
@[simp] theorem writeRes_resp (a b : Word) (s : State) : (s.writeRes a b).resp = s.resp := rfl
@[simp] theorem writeRes_freeCount (a b : Word) (s : State) : (s.writeRes a b).freeCount = s.freeCount := rfl

/-! ## `State.clearStatus` -/

@[simp] theorem clearStatus_cfg (v : Word) (s : State) : (s.clearStatus v).cfg = s.cfg := rfl
@[simp] theorem clearStatus_ks (v : Word) (s : State) : (s.clearStatus v).ks = s.ks := rfl
@[simp] theorem clearStatus_spPhase (v : Word) (s : State) : (s.clearStatus v).spPhase = s.spPhase := rfl
@[simp] theorem clearStatus_spRate (v : Word) (s : State) : (s.clearStatus v).spRate = s.spRate := rfl
@[simp] theorem clearStatus_spPos (v : Word) (s : State) : (s.clearStatus v).spPos = s.spPos := rfl
@[simp] theorem clearStatus_p (v : Word) (s : State) : (s.clearStatus v).p = s.p := rfl
@[simp] theorem clearStatus_buf (v : Word) (s : State) : (s.clearStatus v).buf = s.buf := rfl
@[simp] theorem clearStatus_arg0 (v : Word) (s : State) : (s.clearStatus v).arg0 = s.arg0 := rfl
@[simp] theorem clearStatus_arg1 (v : Word) (s : State) : (s.clearStatus v).arg1 = s.arg1 := rfl
@[simp] theorem clearStatus_arg2 (v : Word) (s : State) : (s.clearStatus v).arg2 = s.arg2 := rfl
@[simp] theorem clearStatus_arg3 (v : Word) (s : State) : (s.clearStatus v).arg3 = s.arg3 := rfl
@[simp] theorem clearStatus_res (v : Word) (s : State) : (s.clearStatus v).res = s.res := rfl
@[simp] theorem clearStatus_res2 (v : Word) (s : State) : (s.clearStatus v).res2 = s.res2 := rfl
@[simp] theorem clearStatus_ie (v : Word) (s : State) : (s.clearStatus v).ie = s.ie := rfl
@[simp] theorem clearStatus_busy (v : Word) (s : State) : (s.clearStatus v).busy = s.busy := rfl
@[simp] theorem clearStatus_done (v : Word) (s : State) : (s.clearStatus v).done = (s.done && !v.getLsbD 1) := rfl
@[simp] theorem clearStatus_err (v : Word) (s : State) : (s.clearStatus v).err = (s.err && !v.getLsbD 2) := rfl
@[simp] theorem clearStatus_hz (v : Word) (s : State) : (s.clearStatus v).hz = (s.hz && !v.getLsbD 3) := rfl
@[simp] theorem clearStatus_errcode (v : Word) (s : State) : (s.clearStatus v).errcode = if v.getLsbD 2 then 0 else s.errcode := rfl
@[simp] theorem clearStatus_cmd (v : Word) (s : State) : (s.clearStatus v).cmd = s.cmd := rfl
@[simp] theorem clearStatus_cur (v : Word) (s : State) : (s.clearStatus v).cur = s.cur := rfl
@[simp] theorem clearStatus_env (v : Word) (s : State) : (s.clearStatus v).env = s.env := rfl
@[simp] theorem clearStatus_resp (v : Word) (s : State) : (s.clearStatus v).resp = s.resp := rfl
@[simp] theorem clearStatus_freeCount (v : Word) (s : State) : (s.clearStatus v).freeCount = s.freeCount := rfl

/-! ## `State.blockReset` -/

@[simp] theorem blockReset_cfg (s : State) : s.blockReset.cfg = s.cfg := rfl
@[simp] theorem blockReset_ks (s : State) : s.blockReset.ks = State.reset.ks := rfl
@[simp] theorem blockReset_spPhase (s : State) : s.blockReset.spPhase = State.reset.spPhase := rfl
@[simp] theorem blockReset_spRate (s : State) : s.blockReset.spRate = State.reset.spRate := rfl
@[simp] theorem blockReset_spPos (s : State) : s.blockReset.spPos = State.reset.spPos := rfl
@[simp] theorem blockReset_p (s : State) : s.blockReset.p = State.reset.p := rfl
@[simp] theorem blockReset_buf (s : State) : s.blockReset.buf = State.reset.buf := rfl
@[simp] theorem blockReset_arg0 (s : State) : s.blockReset.arg0 = State.reset.arg0 := rfl
@[simp] theorem blockReset_arg1 (s : State) : s.blockReset.arg1 = State.reset.arg1 := rfl
@[simp] theorem blockReset_arg2 (s : State) : s.blockReset.arg2 = State.reset.arg2 := rfl
@[simp] theorem blockReset_arg3 (s : State) : s.blockReset.arg3 = State.reset.arg3 := rfl
@[simp] theorem blockReset_res (s : State) : s.blockReset.res = State.reset.res := rfl
@[simp] theorem blockReset_res2 (s : State) : s.blockReset.res2 = State.reset.res2 := rfl
@[simp] theorem blockReset_ie (s : State) : s.blockReset.ie = State.reset.ie := rfl
@[simp] theorem blockReset_busy (s : State) : s.blockReset.busy = State.reset.busy := rfl
@[simp] theorem blockReset_done (s : State) : s.blockReset.done = State.reset.done := rfl
@[simp] theorem blockReset_err (s : State) : s.blockReset.err = State.reset.err := rfl
@[simp] theorem blockReset_hz (s : State) : s.blockReset.hz = State.reset.hz := rfl
@[simp] theorem blockReset_errcode (s : State) : s.blockReset.errcode = State.reset.errcode := rfl
@[simp] theorem blockReset_cmd (s : State) : s.blockReset.cmd = State.reset.cmd := rfl
@[simp] theorem blockReset_cur (s : State) : s.blockReset.cur = State.reset.cur := rfl
@[simp] theorem blockReset_env (s : State) : s.blockReset.env = s.env := rfl
@[simp] theorem blockReset_resp (s : State) : s.blockReset.resp = s.resp := rfl
@[simp] theorem blockReset_freeCount (s : State) : s.blockReset.freeCount = s.freeCount := rfl

/-- A failed command reports on the state as it was: `State.fail` written out (R301, R302). -/
theorem fail_eq (e : Err) (s : State) :
    s.fail e = { s with busy := false, done := true, cur := 0, err := true, errcode := e.code } := rfl

end Sys2Proof.Machine
end

