-- ==== Sys2Proof/Laws/Steps.lean ====
section
/-! SUPPORT. What the shared operations can do, said once: performing a command, a host access, a core step, a step. -/

namespace Sys2Proof.Machine

/-- Performing a body that ends with results. -/
theorem perform_ok (s t : State) : perform s (.ok t) = .next t.complete := rfl

/-- Performing a body that raises an error. -/
theorem perform_error (s : State) (e : Err) : perform s (.error e) = .next (s.fail e) := rfl

/-- All that performing a command can answer (R300). -/
theorem perform_cases {s u : State} {body : Except Err State} (h : perform s body = .next u) :
    (∃ t, body = .ok t ∧ u = t.complete) ∨ (∃ e, body = .error e ∧ u = s.fail e) := by
  cases body with
  | ok t => exact .inl ⟨t, rfl, by cases h; rfl⟩
  | error e => exact .inr ⟨e, rfl, by cases h; rfl⟩

/-- Performing a command answers a next state. -/
theorem perform_goes_on (s : State) (body : Except Err State) : ∃ u, perform s body = .next u := ⟨_, rfl⟩

/-- All that performing the command in flight can be (R90, R119). -/
theorem performCommand_cases (s : State) :
    (∃ i, decode s.cfg.np s.cur = some i ∧ performCommand s = exec i s) ∨
      (decode s.cfg.np s.cur = none ∧ performCommand s = .next (s.fail .illegal)) := by
  unfold performCommand
  cases decode s.cfg.np s.cur with
  | none => exact .inr ⟨rfl, rfl⟩
  | some i => exact .inl ⟨i, rfl, rfl⟩

/-- All that the core's step can be (R320). -/
theorem coreStep_cases (s : State) :
    (s.busy = true ∧ coreStep s = performCommand s) ∨ (s.busy = false ∧ coreStep s = .next s) := by
  unfold coreStep
  cases s.busy
  · exact .inr ⟨rfl, rfl⟩
  · exact .inl ⟨rfl, rfl⟩

/-- All that a step can be. -/
theorem step_cases (s : State) :
    (s.env = [] ∧ step s = coreStep s) ∨
      (∃ rest, s.env = .core :: rest ∧ step s = coreStep { s with env := rest }) ∨
      (∃ a rest, s.env = .host a :: rest ∧ step s = .next (hostStep a { s with env := rest })) ∨
      (∃ rest, s.env = .powerOnReset :: rest ∧ step s = .next (State.blockReset { s with env := rest })) := by
  unfold step agentStep
  split
  · next h => exact .inl ⟨h, rfl⟩
  · next rest h => exact .inr (.inl ⟨rest, h, rfl⟩)
  · next a rest h => exact .inr (.inr (.inl ⟨a, rest, h, rfl⟩))
  · next rest h => exact .inr (.inr (.inr ⟨rest, h, rfl⟩))

/-- All that a host access can do to the block: nothing (outside the window, malformed, or a read), set HZ (a disallowed
access while busy), or the effect of a write. -/
theorem hostStep_cases (a : Access) (s : State) :
    (∃ r, hostStep a s = { s with resp := r }) ∨
      (s.busy = true ∧ ∃ r n, hostStep a s = { s.setHz with resp := r, freeCount := n }) ∨
      (∃ addr size v off, a = .write addr size v ∧ windowOffset s.cfg addr = some off ∧ accessOk off size = true ∧
        (s.busy = true → writeAllowed (target s.cfg off) = true) ∧
        hostStep a s = { writeTarget (target s.cfg off) size v s with resp := some .ack }) := by
  unfold hostStep
  cases hw : windowOffset s.cfg a.addr with
  | none => exact .inl ⟨none, rfl⟩
  | some off =>
    cases a with
    | read addr size =>
      by_cases hok : accessOk off size = true
      · by_cases hb : (s.busy && !readAllowed (target s.cfg off)) = true
        · refine .inr (.inl ⟨by simp_all, some (.data (freeData size s)), s.freeCount + 1, ?_⟩)
          simp [busAccess, hok, readAccess, hb]
        · refine .inl ⟨some (.data (readTarget (target s.cfg off) size s)), ?_⟩
          simp [busAccess, hok, readAccess, hb]
      · exact .inl ⟨some (.fault .hostBusError), by simp [busAccess, hok]⟩
    | write addr size v =>
      by_cases hok : accessOk off size = true
      · by_cases hb : (s.busy && !writeAllowed (target s.cfg off)) = true
        · refine .inr (.inl ⟨by simp_all, some .ack, s.freeCount, ?_⟩)
          simp [busAccess, hok, writeAccess, hb]
        · refine .inr (.inr ⟨addr, size, v, off, rfl, hw, hok, ?_, ?_⟩)
          · intro h
            simpa [h] using hb
          · simp [busAccess, hok, writeAccess, hb]
      · exact .inl ⟨some (.fault .hostBusError), by simp [busAccess, hok]⟩

end Sys2Proof.Machine
end

