-- ==== Sys2Proof/Laws/Commands.lean ====
section
/-! SUPPORT. What every command's body is, said once: the state with its results, or an error of its row of R308. -/

namespace Sys2Proof.Machine

/-- What a command's body leaves alone when it ends with results (R38, R39, R48). -/
structure BodyFrame (i : Instr) (s t : State) : Prop where
  cfg : t.cfg = s.cfg
  ie : t.ie = s.ie
  err : t.err = s.err
  errcode : t.errcode = s.errcode
  hz : t.hz = s.hz
  cmd : t.cmd = s.cmd
  env : t.env = s.env
  resp : t.resp = s.resp
  freeCount : t.freeCount = s.freeCount
  args : i ≠ .wipe → t.arg0 = s.arg0 ∧ t.arg1 = s.arg1 ∧ t.arg2 = s.arg2 ∧ t.arg3 = s.arg3
  results : i ∉ [.montr, .fqmul, .bred, .dred, .dcsub, .wipe] → t.res = s.res ∧ t.res2 = s.res2

/-- A body that ends with results. -/
theorem body_ok {i : Instr} {s t : State} (h : BodyFrame i s t) :
    ∃ body, perform s (.ok t) = perform s body ∧ (∀ e, body = .error e → e ∈ errorColumn i) ∧
      ∀ t, body = .ok t → BodyFrame i s t :=
  ⟨.ok t, rfl, fun _ h => (nomatch h), fun _ h' => by cases h'; exact h⟩

/-- A body that checks first. -/
theorem body_checked {i : Instr} {s : State} {body : Except Err State} (he : ∀ e, body = .error e → e ∈ errorColumn i)
    (hf : ∀ t, body = .ok t → BodyFrame i s t) :
    ∃ b, perform s body = perform s b ∧ (∀ e, b = .error e → e ∈ errorColumn i) ∧
      ∀ t, b = .ok t → BodyFrame i s t :=
  ⟨body, rfl, he, hf⟩

/-- Every command performs a body that raises only errors of its row, and otherwise keeps the frame. -/
theorem exec_body (i : Instr) (s : State) :
    ∃ body, exec i s = perform s body ∧ (∀ e, body = .error e → e ∈ errorColumn i) ∧
      ∀ t, body = .ok t → BodyFrame i s t := by
  cases i <;> simp only [exec]
  case kperm => unfold execKperm; exact body_ok (by constructor <;> simp)
  case kzero => unfold execKzero; exact body_ok (by constructor <;> simp)
  case sinit => unfold execSinit; exact body_ok (by constructor <;> simp)
  case montr => unfold execMontr; exact body_ok (by constructor <;> simp [State.montgomery])
  case fqmul => unfold execFqmul; exact body_ok (by constructor <;> simp [State.montgomery])
  case bred => unfold execBred; exact body_ok (by constructor <;> simp)
  case dred => unfold execDred; exact body_ok (by constructor <;> simp)
  case wipe => unfold execWipe; exact body_ok (by constructor <;> simp)
  case sabsorb =>
    unfold execSabsorb
    apply body_checked <;> intro x hx <;> split_ifs at hx <;> cases hx
    all_goals solve | simp [errorColumn] | (constructor <;> simp)
  case sfinal =>
    unfold execSfinal
    apply body_checked <;> intro x hx <;> split_ifs at hx <;> cases hx
    all_goals solve | simp [errorColumn] | (constructor <;> simp)
  case ssqueeze =>
    unfold execSsqueeze
    apply body_checked <;> intro x hx <;> split_ifs at hx <;> cases hx
    all_goals solve | simp [errorColumn] | (constructor <;> simp)
  case dcsub =>
    unfold execDcsub
    apply body_checked <;> intro x hx <;> split_ifs at hx <;> cases hx
    all_goals solve | simp [errorColumn] | (constructor <;> simp)
  case pload =>
    unfold execPload
    apply body_checked <;> intro x hx <;> split_ifs at hx <;> cases hx
    all_goals solve | simp [errorColumn] | (constructor <;> simp)
  case pstore =>
    unfold execPstore
    apply body_checked <;> intro x hx <;> split_ifs at hx <;> cases hx
    all_goals solve | simp [errorColumn] | (constructor <;> simp)
  case ntt =>
    unfold execNtt
    apply body_checked <;> intro x hx <;> split_ifs at hx <;> cases hx
    all_goals solve | simp [errorColumn] | (constructor <;> simp)
  case intt =>
    unfold execIntt
    apply body_checked <;> intro x hx <;> split_ifs at hx <;> cases hx
    all_goals solve | simp [errorColumn] | (constructor <;> simp)
  case pmul =>
    unfold execPmul
    apply body_checked <;> intro x hx <;> split_ifs at hx <;> cases hx
    all_goals solve | simp [errorColumn] | (constructor <;> simp)
  case pmac =>
    unfold execPmac
    apply body_checked <;> intro x hx <;> split_ifs at hx <;> cases hx
    all_goals solve | simp [errorColumn] | (constructor <;> simp)
  case cbd =>
    unfold execCbd
    apply body_checked <;> intro x hx <;> split_ifs at hx <;> cases hx
    all_goals solve | simp [errorColumn] | (constructor <;> simp)

/-- Every command answers a next state (R300). -/
theorem exec_goes_on (i : Instr) (s : State) : GoesOn (exec i s) := by
  obtain ⟨body, e, -, -⟩ := exec_body i s
  rw [e]
  exact perform_goes_on s body

end Sys2Proof.Machine
end

