-- ==== Sys2Proof/Laws/HostPort.lean ====
section
/-! SUPPORT. The laws of the host port: which offsets name which register, and what one access in the window is. -/

namespace Sys2Proof.Machine

/-- A bus address in the window has its offset (R80). -/
theorem windowOffset_inside (c : Config) (off : Nat) (h : off < 65536) :
    windowOffset c (c.coreBase + off) = some off := by
  simp [windowOffset, h]

/-- The access rules in words (R82, R83). -/
theorem accessOk_iff (off size : Nat) :
    accessOk off size = true ↔ (off < 0x8000 ∧ size = 4 ∧ off % 4 = 0) ∨
      (0x8000 ≤ off ∧ (size = 1 ∨ size = 2 ∨ size = 4) ∧ off % size = 0) := by
  unfold accessOk
  split
  · next h => simp [h, Nat.not_le.mpr h]
  · next h => simp [h, Nat.not_lt.mp h, or_assoc]

/-- A control register's name gives its offset back (R51). -/
theorem controlRegister_cases (off : Nat) :
    (off = 0x0 ∧ controlRegister off = .id) ∨ (off = 0x4 ∧ controlRegister off = .ctrl) ∨
      (off = 0x8 ∧ controlRegister off = .status) ∨ (off = 0xC ∧ controlRegister off = .cmd) ∨
      (off = 0x10 ∧ controlRegister off = .arg0) ∨ (off = 0x14 ∧ controlRegister off = .arg1) ∨
      (off = 0x18 ∧ controlRegister off = .arg2) ∨ (off = 0x1C ∧ controlRegister off = .arg3) ∨
      (off = 0x20 ∧ controlRegister off = .res) ∨ (off = 0x24 ∧ controlRegister off = .res2) ∨
      (off = 0x28 ∧ controlRegister off = .sponge) ∨
      (off ∉ [0x0, 0x4, 0x8, 0xC, 0x10, 0x14, 0x18, 0x1C, 0x20, 0x24, 0x28] ∧ controlRegister off = .reserved) := by
  unfold controlRegister
  split <;> simp_all

/-- Every offset is a control register, a half of a lane, a byte of BUF, or reserved (R51, R81). -/
theorem target_cases (c : Config) (off : Nat) :
    (off < 0x100 ∧ target c off = controlRegister off) ∨
      (∃ i < 25, (0x100 + 8 * i ≤ off ∧ off < 0x104 + 8 * i) ∧ target c off = .ksl i) ∨
      (∃ i < 25, (0x104 + 8 * i ≤ off ∧ off < 0x108 + 8 * i) ∧ target c off = .ksh i) ∨
      (0x8000 ≤ off ∧ off < 0x8000 + c.bufBytes ∧ target c off = .buf (off - 0x8000)) ∨
      (((0x1C8 ≤ off ∧ off < 0x8000) ∨ 0x8000 + c.bufBytes ≤ off) ∧ target c off = .reserved) := by
  unfold target
  split_ifs with h1 h2 h3 h4 h5
  · exact .inl ⟨h1, rfl⟩
  · exact .inr (.inl ⟨_, by omega, by omega, rfl⟩)
  · exact .inr (.inr (.inl ⟨_, by omega, by omega, rfl⟩))
  · exact .inr (.inr (.inr (.inr ⟨by omega, rfl⟩)))
  · exact .inr (.inr (.inr (.inl ⟨by omega, by omega, rfl⟩)))
  · exact .inr (.inr (.inr (.inr ⟨by omega, rfl⟩)))

/-- The offsets that may be read while BUSY = 1 (R350). -/
theorem readAllowed_target (c : Config) (off : Nat) :
    readAllowed (target c off) = true ↔ off ∈ [0x0, 0x4, 0x8, 0xC] := by
  rcases target_cases c off with ⟨-, e⟩ | ⟨i, -, h, e⟩ | ⟨i, -, h, e⟩ | ⟨h, -, e⟩ | ⟨h, e⟩ <;> rw [e]
  · rcases controlRegister_cases off with ⟨rfl, e⟩ | ⟨rfl, e⟩ | ⟨rfl, e⟩ | ⟨rfl, e⟩ | ⟨rfl, e⟩ | ⟨rfl, e⟩ |
      ⟨rfl, e⟩ | ⟨rfl, e⟩ | ⟨rfl, e⟩ | ⟨rfl, e⟩ | ⟨rfl, e⟩ | ⟨h, e⟩ <;> rw [e] <;> first | decide | simp_all [readAllowed]
  all_goals simp [readAllowed]; omega

/-- The offsets that may be written while BUSY = 1 (R350). -/
theorem writeAllowed_target (c : Config) (off : Nat) :
    writeAllowed (target c off) = true ↔ off ∈ [0x4, 0x8] := by
  rcases target_cases c off with ⟨-, e⟩ | ⟨i, -, h, e⟩ | ⟨i, -, h, e⟩ | ⟨h, -, e⟩ | ⟨h, e⟩ <;> rw [e]
  · rcases controlRegister_cases off with ⟨rfl, e⟩ | ⟨rfl, e⟩ | ⟨rfl, e⟩ | ⟨rfl, e⟩ | ⟨rfl, e⟩ | ⟨rfl, e⟩ |
      ⟨rfl, e⟩ | ⟨rfl, e⟩ | ⟨rfl, e⟩ | ⟨rfl, e⟩ | ⟨rfl, e⟩ | ⟨h, e⟩ <;> rw [e] <;> first | decide | simp_all [writeAllowed]
  all_goals simp [writeAllowed]; omega

/-- A malformed access in the window, busy or not (R84, R350). -/
theorem hostStep_malformed (s : State) (off size : Nat) (v : Word) (h : off < 65536) (hm : accessOk off size = false) :
    hostStep (.read (s.cfg.coreBase + off) size) s = { s with resp := some (.fault .hostBusError) } ∧
      hostStep (.write (s.cfg.coreBase + off) size v) s = { s with resp := some (.fault .hostBusError) } := by
  simp [hostStep, Access.addr, windowOffset_inside s.cfg off h, busAccess, hm]

/-- A well-formed read in the window. -/
theorem hostStep_read (s : State) (off size : Nat) (h : off < 65536) (hm : accessOk off size = true) :
    hostStep (.read (s.cfg.coreBase + off) size) s =
      if s.busy = true ∧ off ∉ [0x0, 0x4, 0x8, 0xC] then
        { s.setHz with resp := some (.data (freeData size s)), freeCount := s.freeCount + 1 }
      else { s with resp := some (.data (readTarget (target s.cfg off) size s)) } := by
  have ha := readAllowed_target s.cfg off
  by_cases hr : readAllowed (target s.cfg off) = true <;> by_cases hb : s.busy = true <;>
    simp_all [hostStep, Access.addr, windowOffset_inside s.cfg off h, busAccess, readAccess]

/-- A well-formed write in the window. -/
theorem hostStep_write (s : State) (off size : Nat) (v : Word) (h : off < 65536) (hm : accessOk off size = true) :
    hostStep (.write (s.cfg.coreBase + off) size v) s =
      if s.busy = true ∧ off ∉ [0x4, 0x8] then { s.setHz with resp := some .ack }
      else { writeTarget (target s.cfg off) size v s with resp := some .ack } := by
  have ha := writeAllowed_target s.cfg off
  by_cases hr : writeAllowed (target s.cfg off) = true <;> by_cases hb : s.busy = true <;>
    simp_all [hostStep, Access.addr, windowOffset_inside s.cfg off h, busAccess, writeAccess]

end Sys2Proof.Machine
end

