-- ==== Sys2Proof/Laws/Memory.lean ====
section
/-! SUPPORT. The laws of the buffer: what a write leaves at each address, and that it keeps the canonical form. -/

namespace Sys2Proof.Machine

@[simp] theorem leBytes_length (n : Nat) (w : Word) : (leBytes n w).length = n := by simp [leBytes]

@[simp] theorem read_length (m : Memory) (a n : Nat) : (m.read a n).length = n := by simp [Memory.read]

@[simp] theorem read_zero (m : Memory) (a : Nat) : m.read a 0 = [] := rfl

theorem read_getElem (m : Memory) (a n k : Nat) (h : k < (m.read a n).length) :
    (m.read a n)[k] = m.byte (a + k) := by simp [Memory.read]

@[simp] theorem byte_nil (x : Nat) : Memory.byte [] x = 0 := rfl

theorem byte_cons (c : Host.Cell) (m : Memory) (x : Nat) :
    Memory.byte (c :: m) x = if c.1 = x then c.2 else Memory.byte m x := by
  cases c
  rfl

/-- An address that no cell lists reads 0. -/
theorem byte_of_not_listed {m : Memory} {x : Nat} (h : ∀ c ∈ m, c.1 ≠ x) : m.byte x = 0 := by
  induction m with
  | nil => rfl
  | cons c m ih =>
    rw [byte_cons, if_neg (h c (by simp))]
    exact ih fun d hd => h d (by simp [hd])

/-- Reading through two parts when the first does not list the address. -/
theorem byte_append_right {m n : Memory} {x : Nat} (h : ∀ c ∈ m, c.1 ≠ x) :
    Memory.byte (m ++ n) x = Memory.byte n x := by
  induction m with
  | nil => rfl
  | cons c m ih =>
    rw [List.cons_append, byte_cons, if_neg (h c (by simp))]
    exact ih fun d hd => h d (by simp [hd])

/-- Reading through two parts when the second does not list the address. -/
theorem byte_append_left {m n : Memory} {x : Nat} (h : ∀ c ∈ n, c.1 ≠ x) :
    Memory.byte (m ++ n) x = Memory.byte m x := by
  induction m with
  | nil => exact byte_of_not_listed h
  | cons c m ih => rw [List.cons_append, byte_cons, byte_cons, ih]

/-- A filter that keeps every cell of an address keeps its byte. -/
theorem byte_filter_keep {m : Memory} {f : Host.Cell → Bool} {x : Nat} (h : ∀ c ∈ m, c.1 = x → f c = true) :
    Memory.byte (m.filter f) x = m.byte x := by
  induction m with
  | nil => rfl
  | cons c m ih =>
    have ih' := ih fun d hd => h d (by simp [hd])
    by_cases hf : f c = true
    · rw [List.filter_cons_of_pos hf, byte_cons, byte_cons, ih']
    · have hx : c.1 ≠ x := fun e => hf (h c (by simp) e)
      rw [List.filter_cons_of_neg hf, byte_cons, if_neg hx, ih']

/-- The cells of a byte sequence lie in its range. -/
theorem cells_range {a : Nat} {bs : List Byte} {c : Host.Cell} (h : c ∈ cells a bs) :
    a ≤ c.1 ∧ c.1 < a + bs.length ∧ c.2 ≠ 0 := by
  induction bs generalizing a with
  | nil => simp [cells] at h
  | cons b bs ih =>
    simp only [cells] at h
    split at h
    · have := ih h
      simp only [List.length_cons]
      exact ⟨by omega, by omega, this.2.2⟩
    · rcases List.mem_cons.1 h with rfl | h
      · simp_all
      · have := ih h
        simp only [List.length_cons]
        exact ⟨by omega, by omega, this.2.2⟩

/-- The cells of a byte sequence read back as the sequence. -/
theorem byte_cells (a : Nat) (bs : List Byte) (k : Nat) : Memory.byte (cells a bs) (a + k) = bs.getD k 0 := by
  induction bs generalizing a k with
  | nil => simp [cells]
  | cons b bs ih =>
    have hlow : ∀ c ∈ cells (a + 1) bs, c.1 ≠ a := fun c hc => by have := cells_range hc; omega
    cases k with
    | zero =>
      simp only [cells]
      split
      · next h => simp [byte_of_not_listed hlow, h]
      · simp [byte_cons]
    | succ k =>
      have := ih (a + 1) k
      simp only [cells]
      split
      · simpa [Nat.add_assoc, Nat.add_comm 1 k] using this
      · rw [byte_cons, if_neg (by simp)]
        simpa [Nat.add_assoc, Nat.add_comm 1 k] using this

/-- What every address reads after `MemWrite` (R11). -/
theorem byte_write (m : Memory) (a : Nat) (bs : List Byte) (x : Nat) :
    (m.write a bs).byte x = if a ≤ x ∧ x < a + bs.length then bs.getD (x - a) 0 else m.byte x := by
  unfold Memory.write
  by_cases h1 : x < a
  · rw [if_neg (by omega), byte_append_left, byte_append_left, byte_filter_keep]
    · intro c _ e
      simp [e, h1]
    · intro c hc
      have := cells_range hc
      omega
    · intro c hc
      have := List.of_mem_filter hc
      simp only [decide_eq_true_eq] at this
      omega
  · have hlow : ∀ c ∈ m.filter (fun c => decide (c.1 < a)), c.1 ≠ x := by
      intro c hc
      have := List.of_mem_filter hc
      simp only [decide_eq_true_eq] at this
      omega
    rw [List.append_assoc, byte_append_right hlow]
    by_cases h2 : x < a + bs.length
    · rw [if_pos ⟨by omega, h2⟩, byte_append_left]
      · have := byte_cells a bs (x - a)
        rwa [Nat.add_sub_cancel' (by omega)] at this
      · intro c hc
        have := List.of_mem_filter hc
        simp only [decide_eq_true_eq] at this
        omega
    · rw [if_neg (by omega), byte_append_right, byte_filter_keep]
      · intro c _ e
        simp only [decide_eq_true_eq]
        omega
      · intro c hc
        have := cells_range hc
        omega

/-- The cells of a byte sequence are in canonical form. -/
theorem cells_wf (a : Nat) (bs : List Byte) : (cells a bs).wf := by
  induction bs generalizing a with
  | nil => exact ⟨List.Pairwise.nil, by simp [cells]⟩
  | cons b bs ih =>
    simp only [cells]
    split
    · exact ih (a + 1)
    · next h =>
      refine ⟨List.pairwise_cons.2 ⟨fun c hc => ?_, (ih (a + 1)).1⟩, ?_⟩
      · have := cells_range hc
        simp only
        omega
      · intro c hc
        rcases List.mem_cons.1 hc with rfl | hc
        · exact h
        · exact (ih (a + 1)).2 c hc

/-- `MemWrite` keeps the canonical form. -/
theorem write_wf {m : Memory} (h : m.wf) (a : Nat) (bs : List Byte) : (m.write a bs).wf := by
  refine ⟨?_, ?_⟩
  · refine List.pairwise_append.2 ⟨List.pairwise_append.2 ⟨h.1.filter _, (cells_wf a bs).1, ?_⟩, h.1.filter _, ?_⟩
    · intro c hc d hd
      have h1 := List.of_mem_filter hc
      have h2 := cells_range hd
      simp only [decide_eq_true_eq] at h1
      omega
    · intro c hc d hd
      have h2 := List.of_mem_filter hd
      simp only [decide_eq_true_eq] at h2
      rcases List.mem_append.1 hc with hc | hc
      · have h1 := List.of_mem_filter hc
        simp only [decide_eq_true_eq] at h1
        omega
      · have h1 := cells_range hc
        omega
  · intro c hc
    rcases List.mem_append.1 hc with hc | hc
    · rcases List.mem_append.1 hc with hc | hc
      · exact h.2 c (List.mem_of_mem_filter hc)
      · exact (cells_range hc).2.2
    · exact h.2 c (List.mem_of_mem_filter hc)

/-- `MemWrite` within the buffer lists no byte outside it. -/
theorem write_below {m : Memory} {size a : Nat} {bs : List Byte} (h : m.below size) (hb : a + bs.length ≤ size) :
    (m.write a bs).below size := by
  intro c hc
  rcases List.mem_append.1 hc with hc | hc
  · rcases List.mem_append.1 hc with hc | hc
    · exact h c (List.mem_of_mem_filter hc)
    · have := cells_range hc
      omega
  · exact h c (List.mem_of_mem_filter hc)

/-- The empty buffer, that of reset and WIPE, is in canonical form. -/
theorem nil_wf : Memory.wf [] := ⟨List.Pairwise.nil, by simp⟩

/-- The buffer at reset is in canonical form. -/
theorem reset_buf_wf : State.reset.buf.wf := nil_wf

end Sys2Proof.Machine
end

