-- ==== Sys2Proof/Laws/PerInstr.lean ====
section
/-! SUPPORT. Statements about every command as syntax, one lemma for each constructor. -/

namespace Sys2Proof

/-- A field as arithmetic on the word's number (R9). -/
theorem field_toNat (w : Word) (lo len : Nat) : field w lo len = w.toNat / 2 ^ lo % 2 ^ len := by
  simp [field, Nat.shiftRight_eq_div_pow]

/-- The number of a word built by the formula of R120. -/
theorem encodeFields_toNat (op rg rd rs1 rs2 imm : Nat) :
    (encodeFields op rg rd rs1 rs2 imm).toNat =
      (op * 0x1000000 + rg * 0x800000 + rd * 0x10000 + rs1 * 0x1000 + rs2 * 0x100 + imm) % 2 ^ 32 := by
  rw [encodeFields, BitVec.toNat_ofNat]

/-- A word built by the formula of R120 has the reserved bits 0 when its register fields fit. -/
theorem encodeFields_rsv {op rg rd rs1 rs2 imm : Nat} (_ : rg < 2) (_ : rd < 16) (_ : rs1 < 16) (_ : rs2 < 16)
    (_ : imm < 256) : rsvField (encodeFields op rg rd rs1 rs2 imm) = 0 := by
  rw [rsvField, field_toNat, encodeFields_toNat]
  norm_num
  omega

theorem ring_code_lt (rg : Ring) : rg.code < 2 := by cases rg <;> decide

theorem variant_code_lt (v : Variant) : v.code < 256 := by cases v <;> decide

theorem eta_code_lt (e : Eta) : e.code < 256 := by cases e <;> decide

namespace Laws.RsvZero

/-- R113: RSV is 0 in the word of every command. -/
def Statement (i : Instr) : Prop := rsvField (encode i) = 0

theorem kperm : Statement .kperm := by unfold Statement; decide
theorem kzero : Statement .kzero := by unfold Statement; decide
theorem sinit (v : Variant) : Statement (.sinit v) := by cases v <;> (unfold Statement; decide)
theorem sabsorb : Statement .sabsorb := by unfold Statement; decide
theorem sfinal (ds : Byte) : Statement (.sfinal ds) :=
  encodeFields_rsv (by decide) (by decide) (by decide) (by decide) ds.isLt
theorem ssqueeze : Statement .ssqueeze := by unfold Statement; decide
theorem montr : Statement .montr := by unfold Statement; decide
theorem fqmul : Statement .fqmul := by unfold Statement; decide
theorem bred : Statement .bred := by unfold Statement; decide
theorem dred : Statement .dred := by unfold Statement; decide
theorem dcsub : Statement .dcsub := by unfold Statement; decide
theorem pload (rg : Ring) (rd : PReg) : Statement (.pload rg rd) :=
  encodeFields_rsv (ring_code_lt rg) rd.isLt (by decide) (by decide) (by decide)
theorem pstore (rs1 : PReg) : Statement (.pstore rs1) :=
  encodeFields_rsv (by decide) (by decide) rs1.isLt (by decide) (by decide)
theorem ntt (rg : Ring) (rd rs1 : PReg) : Statement (.ntt rg rd rs1) :=
  encodeFields_rsv (ring_code_lt rg) rd.isLt rs1.isLt (by decide) (by decide)
theorem intt (rg : Ring) (rd rs1 : PReg) : Statement (.intt rg rd rs1) :=
  encodeFields_rsv (ring_code_lt rg) rd.isLt rs1.isLt (by decide) (by decide)
theorem pmul (rg : Ring) (rd rs1 rs2 : PReg) : Statement (.pmul rg rd rs1 rs2) :=
  encodeFields_rsv (ring_code_lt rg) rd.isLt rs1.isLt rs2.isLt (by decide)
theorem pmac (rg : Ring) (rd rs1 rs2 : PReg) : Statement (.pmac rg rd rs1 rs2) :=
  encodeFields_rsv (ring_code_lt rg) rd.isLt rs1.isLt rs2.isLt (by decide)
theorem cbd (rd : PReg) (eta : Eta) : Statement (.cbd rd eta) :=
  encodeFields_rsv (by decide) rd.isLt (by decide) (by decide) (eta_code_lt eta)
theorem wipe : Statement .wipe := by unfold Statement; decide

end Laws.RsvZero

end Sys2Proof
end

