-- ==== Sys2Proof/Tests/Slice0.lean ====
section
/-! SUPPORT. Tests on fixed values and, for each obligation that has hypotheses, a witness that meets them. The expected
values are those of spec/95_test_vectors.md (its V-numbers and programs P1 to P8 are cited) and of the rules' tables. -/

namespace Sys2Proof.Tests

set_option Elab.async false

open Sys2Proof Sys2Proof.Machine

/-! ## Small states -/

/-- A fresh core with four ARG values. -/
def withArgs (a0 a1 a2 a3 : Word) : State := { State.reset with arg0 := a0, arg1 := a1, arg2 := a2, arg3 := a3 }

/-- A fresh core with an open session: phase, rate, position. -/
def inSession (ph : BitVec 2) (rate pos : BitVec 8) (a0 a1 : Word) : State :=
  { withArgs a0 a1 0 0 with spPhase := ph, spRate := rate, spPos := pos }

/-- A fresh core with bytes in the buffer. -/
def withBytes (a : Nat) (bs : List Byte) (a0 : Word) : State := { withArgs a0 0 0 0 with buf := Memory.write [] a bs }

/-- The polynomial with the listed coefficients, then zeros. -/
def poly (cs : List Word) : PolyReg := mkPoly fun i => cs.getD i 0

/-- A fresh core with P[0], P[1] and P[2]. -/
def withPolys (f g h : PolyReg) : State := ((State.reset.writeP 0 f).writeP 1 g).writeP 2 h

/-- A fresh core with the command word in flight. -/
def inFlight (w : Word) : State := State.reset.accept w

/-- A fresh core with two polynomial registers only. -/
def twoRegs : State := { State.reset with cfg := { Config.default with np := 2 } }

/-- A function of the next state, if there is one. -/
def next? {α : Type} (o : Host.Outcome State Fault Refusal) (f : State → α) : Option α :=
  match o with
  | .next t => some (f t)
  | .fault _ => none
  | .refused _ => none

/-- RES, RES2 and STATUS after a command. -/
def results (i : Instr) (s : State) : Option (Word × Word × Word) :=
  next? (exec i s) fun t => (t.res, t.res2, statusWord t)

/-- The first n coefficients of a register after a command. -/
def coefs (i : Instr) (s : State) (r : PReg) (n : Nat) : Option (List Word) :=
  next? (exec i s) fun t => (List.range n).map (coef (t.readP r))

/-- STATUS after a command. -/
def status (i : Instr) (s : State) : Option Word := next? (exec i s) statusWord

/-- The eight fields of a word, from bit 31 down (R110). -/
def wordOf (op : BitVec 8) (rg : BitVec 1) (rsv : BitVec 3) (rd rs1 rs2 : BitVec 4) (imm : BitVec 8) : Word :=
  op ++ rg ++ rsv ++ rd ++ rs1 ++ rs2 ++ imm

/-! ## Well-formedness: each register field refused when it names no register (R114) -/

theorem test_wf_pload_rd : (Instr.pload .kyber 2).wellFormed 2 = false := by decide
theorem test_wf_pstore_rs1 : (Instr.pstore 2).wellFormed 2 = false := by decide
theorem test_wf_ntt_rd : (Instr.ntt .kyber 2 1).wellFormed 2 = false := by decide
theorem test_wf_ntt_rs1 : (Instr.ntt .kyber 1 2).wellFormed 2 = false := by decide
theorem test_wf_intt_rd : (Instr.intt .dilithium 15 1).wellFormed 15 = false := by decide
theorem test_wf_intt_rs1 : (Instr.intt .dilithium 1 15).wellFormed 15 = false := by decide
theorem test_wf_pmul_rd : (Instr.pmul .kyber 2 1 1).wellFormed 2 = false := by decide
theorem test_wf_pmul_rs1 : (Instr.pmul .kyber 1 2 1).wellFormed 2 = false := by decide
theorem test_wf_pmul_rs2 : (Instr.pmul .kyber 1 1 2).wellFormed 2 = false := by decide
theorem test_wf_pmac_rd : (Instr.pmac .kyber 2 1 1).wellFormed 2 = false := by decide
theorem test_wf_pmac_rs1 : (Instr.pmac .kyber 1 2 1).wellFormed 2 = false := by decide
theorem test_wf_pmac_rs2 : (Instr.pmac .kyber 1 1 2).wellFormed 2 = false := by decide
theorem test_wf_cbd_rd : (Instr.cbd 1 .two).wellFormed 1 = false := by decide
theorem test_wf_good : (Instr.pmac .kyber 1 0 1).wellFormed 2 = true ∧ Instr.wipe.wellFormed 1 = true := by decide
theorem test_wf_decode : decode 2 (encode (.pstore 2)) = none ∧ decode 3 (encode (.pstore 2)) = some (.pstore 2) := by
  decide

/-! ## Decoding: the word of each row, field by field (R110, R118) -/

theorem test_decode_kperm : decode 16 (wordOf 0b00010000 0 0 0 0 0 0) = some .kperm := by decide
theorem test_decode_kzero : decode 16 (wordOf 0b00010001 0 0 0 0 0 0) = some .kzero := by decide
theorem test_decode_sinit : decode 16 (wordOf 0b00100000 0 0 0 0 0 0) = some (.sinit .shake128) ∧
    decode 16 (wordOf 0b00100000 0 0 0 0 0 1) = some (.sinit .shake256) := by decide
theorem test_decode_sabsorb : decode 16 (wordOf 0b00100001 0 0 0 0 0 0) = some .sabsorb := by decide
theorem test_decode_sfinal : decode 16 (wordOf 0b00100010 0 0 0 0 0 0b10011111) = some (.sfinal 0x9F) := by decide
theorem test_decode_ssqueeze : decode 16 (wordOf 0b00100011 0 0 0 0 0 0) = some .ssqueeze := by decide
theorem test_decode_montr : decode 16 (wordOf 0b00110000 0 0 0 0 0 0) = some .montr := by decide
theorem test_decode_fqmul : decode 16 (wordOf 0b00110001 0 0 0 0 0 0) = some .fqmul := by decide
theorem test_decode_bred : decode 16 (wordOf 0b00110010 0 0 0 0 0 0) = some .bred := by decide
theorem test_decode_dred : decode 16 (wordOf 0b00110011 0 0 0 0 0 0) = some .dred := by decide
theorem test_decode_dcsub : decode 16 (wordOf 0b00110100 0 0 0 0 0 0) = some .dcsub := by decide
theorem test_decode_pload : decode 16 (wordOf 0b01000000 1 0 0b1011 0 0 0) = some (.pload .dilithium 11) := by decide
theorem test_decode_pstore : decode 16 (wordOf 0b01000001 0 0 0 0b1011 0 0) = some (.pstore 11) := by decide
theorem test_decode_ntt : decode 16 (wordOf 0b01000010 0 0 0b1011 0b0101 0 0) = some (.ntt .kyber 11 5) := by decide
theorem test_decode_intt : decode 16 (wordOf 0b01000011 1 0 0b1011 0b0101 0 0) = some (.intt .dilithium 11 5) := by decide
theorem test_decode_pmul :
    decode 16 (wordOf 0b01000100 0 0 0b1011 0b0101 0b1100 0) = some (.pmul .kyber 11 5 12) := by decide
theorem test_decode_pmac :
    decode 16 (wordOf 0b01000101 1 0 0b1011 0b0101 0b1100 0) = some (.pmac .dilithium 11 5 12) := by decide
theorem test_decode_cbd : decode 16 (wordOf 0b01010000 0 0 0b1011 0 0 0b10) = some (.cbd 11 .two) ∧
    decode 16 (wordOf 0b01010000 0 0 0b1011 0 0 0b11) = some (.cbd 11 .three) := by decide
theorem test_decode_wipe : decode 16 (wordOf 0b11110000 0 0 0 0 0 0) = some .wipe := by decide

/-- Section 2.7 of spec/95_test_vectors.md: the words that decode. -/
theorem test_decode_legal_words :
    decode 16 0x2200001F = some (.sfinal 0x1F) ∧ decode 16 0x220000FF = some (.sfinal 0xFF) ∧
    decode 16 0x408F0000 = some (.pload .dilithium 15) ∧ decode 16 0x44042300 = some (.pmul .kyber 4 2 3) ∧
    decode 16 0x45831200 = some (.pmac .dilithium 3 1 2) ∧ decode 16 0x50000003 = some (.cbd 0 .three) := by decide

/-- Section 2.7: opcodes outside the map (R119). -/
theorem test_decode_illegal_op :
    decode 16 0x00000000 = none ∧ decode 16 0xFFFFFFFF = none ∧ decode 16 0x12000000 = none := by decide

/-- Sections 2.4 and 2.7, P5: a nonzero RSV (R113). -/
theorem test_decode_illegal_rsv :
    decode 16 0x40700000 = none ∧ decode 16 0x40F00000 = none ∧ decode 16 0x42100000 = none ∧ decode 16 0x45100000 = none ∧
    decode 16 0x42900000 = none := by decide

/-- Sections 2.1, 2.3, 2.4, 2.6, 2.7: a field that must be 0 (R117). -/
theorem test_decode_illegal_zero_fields :
    decode 16 0x4300000F = none ∧ decode 16 0x10000001 = none ∧ decode 16 0x10800000 = none ∧ decode 16 0x30800000 = none ∧
    decode 16 0x31010000 = none ∧ decode 16 0x34000001 = none ∧ decode 16 0x42000100 = none ∧ decode 16 0x41800000 = none ∧
    decode 16 0x50800002 = none ∧ decode 16 0xF0000001 = none ∧ decode 16 0xF0010000 = none := by decide

/-- Sections 2.2 and 2.5: an IMM8 value that names nothing (R115). -/
theorem test_decode_illegal_imm :
    decode 16 0x20000002 = none ∧ decode 16 0x50000004 = none ∧ decode 16 0x50000000 = none ∧ decode 16 0x50000001 = none := by decide

/-- A row of the table from its mnemonic: the table numbers bits as `decodeTableWord` does. -/
theorem test_table_words : (opcodeTable.map fun r => (decodeTableWord 32 r.pattern.toNat).map Instr.mnemonic) =
    opcodeTable.map fun r => some r.mnemonic := by decide +kernel

/-! ## Tables (43_polynomial.md R232 to R234) -/

/-- The printed table of R232. -/
theorem test_zeta_kyber_table :
    (List.range 128).map zetaKyber =
      [1, 1729, 2580, 3289, 2642, 630, 1897, 848, 1062, 1919, 193, 797, 2786, 3260, 569, 1746] ++
      [296, 2447, 1339, 1476, 3046, 56, 2240, 1333, 1426, 2094, 535, 2882, 2393, 2879, 1974, 821] ++
      [289, 331, 3253, 1756, 1197, 2304, 2277, 2055, 650, 1977, 2513, 632, 2865, 33, 1320, 1915] ++
      [2319, 1435, 807, 452, 1438, 2868, 1534, 2402, 2647, 2617, 1481, 648, 2474, 3110, 1227, 910] ++
      [17, 2761, 583, 2649, 1637, 723, 2288, 1100, 1409, 2662, 3281, 233, 756, 2156, 3015, 3050] ++
      [1703, 1651, 2789, 1789, 1847, 952, 1461, 2687, 939, 2308, 2437, 2388, 733, 2337, 268, 641] ++
      [1584, 2298, 2037, 3220, 375, 2549, 2090, 1645, 1063, 319, 2773, 757, 2099, 561, 2466, 2594] ++
      [2804, 1092, 403, 1026, 1143, 2150, 2775, 886, 1722, 1212, 1874, 1029, 2110, 2935, 885, 2154] := by decide +kernel

/-- The printed table of R233. -/
theorem test_gamma_kyber_table :
    (List.range 128).map gammaKyber =
      [17, 3312, 2761, 568, 583, 2746, 2649, 680, 1637, 1692, 723, 2606, 2288, 1041, 1100, 2229] ++
      [1409, 1920, 2662, 667, 3281, 48, 233, 3096, 756, 2573, 2156, 1173, 3015, 314, 3050, 279] ++
      [1703, 1626, 1651, 1678, 2789, 540, 1789, 1540, 1847, 1482, 952, 2377, 1461, 1868, 2687, 642] ++
      [939, 2390, 2308, 1021, 2437, 892, 2388, 941, 733, 2596, 2337, 992, 268, 3061, 641, 2688] ++
      [1584, 1745, 2298, 1031, 2037, 1292, 3220, 109, 375, 2954, 2549, 780, 2090, 1239, 1645, 1684] ++
      [1063, 2266, 319, 3010, 2773, 556, 757, 2572, 2099, 1230, 561, 2768, 2466, 863, 2594, 735] ++
      [2804, 525, 1092, 2237, 403, 2926, 1026, 2303, 1143, 2186, 2150, 1179, 2775, 554, 886, 2443] ++
      [1722, 1607, 1212, 2117, 1874, 1455, 1029, 2300, 2110, 1219, 2935, 394, 885, 2444, 2154, 1175] := by decide +kernel

/-- The printed table of R234. -/
theorem test_zeta_dilithium_table :
    (List.range 256).map zetaDilithium =
      [1, 4808194, 3765607, 3761513, 5178923, 5496691, 5234739, 5178987, 7778734, 3542485, 2682288, 2129892, 3764867, 7375178, 557458, 7159240] ++
      [5010068, 4317364, 2663378, 6705802, 4855975, 7946292, 676590, 7044481, 5152541, 1714295, 2453983, 1460718, 7737789, 4795319, 2815639, 2283733] ++
      [3602218, 3182878, 2740543, 4793971, 5269599, 2101410, 3704823, 1159875, 394148, 928749, 1095468, 4874037, 2071829, 4361428, 3241972, 2156050] ++
      [3415069, 1759347, 7562881, 4805951, 3756790, 6444618, 6663429, 4430364, 5483103, 3192354, 556856, 3870317, 2917338, 1853806, 3345963, 1858416] ++
      [3073009, 1277625, 5744944, 3852015, 4183372, 5157610, 5258977, 8106357, 2508980, 2028118, 1937570, 4564692, 2811291, 5396636, 7270901, 4158088] ++
      [1528066, 482649, 1148858, 5418153, 7814814, 169688, 2462444, 5046034, 4213992, 4892034, 1987814, 5183169, 1736313, 235407, 5130263, 3258457] ++
      [5801164, 1787943, 5989328, 6125690, 3482206, 4197502, 7080401, 6018354, 7062739, 2461387, 3035980, 621164, 3901472, 7153756, 2925816, 3374250] ++
      [1356448, 5604662, 2683270, 5601629, 4912752, 2312838, 7727142, 7921254, 348812, 8052569, 1011223, 6026202, 4561790, 6458164, 6143691, 1744507] ++
      [1753, 6444997, 5720892, 6924527, 2660408, 6600190, 8321269, 2772600, 1182243, 87208, 636927, 4415111, 4423672, 6084020, 5095502, 4663471] ++
      [8352605, 822541, 1009365, 5926272, 6400920, 1596822, 4423473, 4620952, 6695264, 4969849, 2678278, 4611469, 4829411, 635956, 8129971, 5925040] ++
      [4234153, 6607829, 2192938, 6653329, 2387513, 4768667, 8111961, 5199961, 3747250, 2296099, 1239911, 4541938, 3195676, 2642980, 1254190, 8368000] ++
      [2998219, 141835, 8291116, 2513018, 7025525, 613238, 7070156, 6161950, 7921677, 6458423, 4040196, 4908348, 2039144, 6500539, 7561656, 6201452] ++
      [6757063, 2105286, 6006015, 6346610, 586241, 7200804, 527981, 5637006, 6903432, 1994046, 2491325, 6987258, 507927, 7192532, 7655613, 6545891] ++
      [5346675, 8041997, 2647994, 3009748, 5767564, 4148469, 749577, 4357667, 3980599, 2569011, 6764887, 1723229, 1665318, 2028038, 1163598, 5011144] ++
      [3994671, 8368538, 7009900, 3020393, 3363542, 214880, 545376, 7609976, 3105558, 7277073, 508145, 7826699, 860144, 3430436, 140244, 6866265] ++
      [6195333, 3123762, 2358373, 6187330, 5365997, 6663603, 2926054, 7987710, 8077412, 3531229, 4405932, 4606686, 1900052, 7598542, 1054478, 7648983] := by decide +kernel


/-! ## Permutation -/

/-- V-P1: KPERM of the zero state. -/
theorem test_kperm_zero : next? (exec .kperm State.reset) (fun t => (lane t.ks 0, lane t.ks 7, lane t.ks 24)) =
    some (0xF1258F7940E1DDE7, 0x8C5BDA0CD6192E76, 0xEAF1FF7B5CECA249) := by decide +kernel

/-- V-P3: KPERM with KS[0] = 1. -/
theorem test_kperm_one :
    next? (exec .kperm { State.reset with ks := setLaneHalf zeroLanes 0 false 1 })
      (fun t => (lane t.ks 0, lane t.ks 4, lane t.ks 24)) =
    some (0xE2A944396F0B13C6, 0xD3BC0B3F2712E2E6, 0xF5A843755D5374AF) := by decide +kernel

/-- V-P5: KZERO in phase SQUEEZE. -/
theorem test_kzero : next? (exec .kzero { inSession 2 168 40 0 0 with ks := setLaneHalf zeroLanes 0 false 5 })
    (fun t => (lane t.ks 0, spongeWord t, statusWord t)) = some (0, 0, 2) := by decide +kernel

/-! ## Sponge -/

/-- V-S14, last row: SINIT in phase SQUEEZE opens a new session. -/
theorem test_sinit : next? (exec (.sinit .shake128) (inSession 2 136 136 0 0)) (fun t => (spongeWord t, statusWord t)) =
    some (0x0001A800, 2) := by decide +kernel

/-- P1, step 3: absorbing 61 62 63. -/
theorem test_sabsorb_abc :
    next? (exec .sabsorb { inSession 1 168 0 0 3 with buf := [(0, 0x61), (1, 0x62), (2, 0x63)] })
      (fun t => (spongeWord t, lane t.ks 0)) = some (0x0001A803, 0x636261) := by decide +kernel

/-- V-S11: the position after 169 bytes, past one permutation. -/
theorem test_sabsorb_position : next? (exec .sabsorb (inSession 1 168 0 0 169)) spongeWord = some 0x0001A801 := by
  decide +kernel

/-- V-S9: SFINAL of the empty message. -/
theorem test_sfinal_empty : next? (exec (.sfinal 0x1F) (inSession 1 168 0 0 0)) (fun t => (lane t.ks 0, spongeWord t)) =
    some (0x7D828FE8A42B9C7F, 0x0002A800) := by decide +kernel

/-- V-S14: SFINAL in phase SQUEEZE. -/
theorem test_sfinal_wrong_phase : status (.sfinal 0x1F) (inSession 2 168 0 0 0) = some 0x206 := by decide +kernel

/-- V-S1: the first bytes of the stream, from the lane of V-S9. -/
theorem test_ssqueeze :
    next? (exec .ssqueeze { inSession 2 168 0 0x100 9 with ks := mkLanes fun i => if i = 0 then 0x7D828FE8A42B9C7F else 0 })
      (fun t => (t.buf.read 0x100 10, spongeWord t)) =
    some ([0x7F, 0x9C, 0x2B, 0xA4, 0xE8, 0x8F, 0x82, 0x7D, 0, 0], 0x0002A809) := by decide +kernel

/-- V-S15: no wrap in the bounds check. -/
theorem test_sabsorb_bounds : status .sabsorb (inSession 1 168 0 0xFFFFFFFF 2) = some 0x306 ∧
    status .sabsorb (inSession 1 168 0 16385 0) = some 0x306 ∧ status .sabsorb (inSession 1 168 0 16384 0) = some 2 := by
  decide +kernel

/-! ## Scalars (section 2.3) -/

theorem test_montr : results .montr (withArgs 0 0 0x80000000 0) = some (522, 0xFFFF8000, 2) ∧
    results .montr (withArgs 0 0 0x7FFFFFFF 0) = some (2638, 35928, 2) := by decide +kernel
theorem test_montr_sign : results .montr (withArgs 0 0 0xFFFF0000 0) = some (3328, 0xFFFFFFFF, 2) ∧
    results .montr (withArgs 0 0 0x3FFF0001 0) = some (3236, 16552, 2) := by decide +kernel
theorem test_fqmul : results .fqmul (withArgs 0 0 0x7FFF 0x8000) = some (1926, 0xFFFFC681, 2) ∧
    results .fqmul (withArgs 0 0 0xABCD0001 0x12340001) = some (169, 169, 2) := by decide +kernel
theorem test_bred : results .bred (withArgs 0 0 0xFFFF8000 0) = some (522, 522, 2) ∧
    results .bred (withArgs 0 0 4994 0) = some (1665, 0xFFFFF980, 2) := by decide +kernel
theorem test_dred : results .dred (withArgs 0 0 0 0x80000000) = some (3007233, 0, 2) ∧
    results .dred (withArgs 0 0 0xFFFFFFFF 0x7FFFFFFF) = some (5373183, 0, 2) := by decide +kernel
theorem test_dcsub : results .dcsub (withArgs 0 0 16760833 0) = some (8380416, 0, 2) ∧
    results .dcsub { withArgs 0 0 16760834 0 with res := 7, res2 := 9 } = some (7, 9, 0x406) := by decide +kernel

/-! ## Polynomials (section 2.4) -/

/-- V-N1, and the range rows: 3329 is refused by PLOAD.K and loaded by PLOAD.D. -/
theorem test_pload : coefs (.pload .dilithium 5) (withBytes 0 [0x01, 0x0D] 0) 5 2 = some [3329, 0] ∧
    status (.pload .kyber 5) (withBytes 0 [0x01, 0x0D] 0) = some 0x406 := by decide +kernel
/-- The bounds rows. -/
theorem test_pload_bounds : status (.pload .kyber 0) (withArgs 15361 0 0 0) = some 0x306 ∧
    status (.pload .kyber 0) (withArgs 15360 0 0 0) = some 2 := by decide +kernel
/-- P6, step 9: the byte order of a stored coefficient. -/
theorem test_pstore : next? (exec (.pstore 0) { withPolys (poly [5, 8380415, 0, 7]) zeroPoly zeroPoly with arg0 := 0xC00 })
    (fun t => t.buf) =
    some [(0xC00, 0x05), (0xC04, 0xFF), (0xC05, 0xDF), (0xC06, 0x7F), (0xC0C, 0x07)] := by decide +kernel
/-- V-N6. -/
theorem test_ntt_kyber : coefs (.ntt .kyber 1 0) (withPolys (poly [0, 0, 1]) zeroPoly zeroPoly) 1 8 =
    some [17, 0, 3312, 0, 2761, 0, 568, 0] := by decide +kernel
/-- V-N7. -/
theorem test_ntt_dilithium : coefs (.ntt .dilithium 1 0) (withPolys (poly [0, 1]) zeroPoly zeroPoly) 1 6 =
    some [1753, 8378664, 6444997, 1935420, 5720892, 2659525] := by decide +kernel
/-- V-N9. -/
theorem test_intt_kyber : coefs (.intt .kyber 1 0) (withPolys (mkPoly fun _ => 1) zeroPoly zeroPoly) 1 4 =
    some [1, 1, 0, 0] := by decide +kernel
/-- V-N8. -/
theorem test_intt_dilithium : coefs (.intt .dilithium 1 0) (withPolys (mkPoly fun _ => 1) zeroPoly zeroPoly) 1 4 =
    some [1, 0, 0, 0] := by decide +kernel
/-- V-N10, and the destination of PMUL is not looked at. -/
theorem test_pmul : coefs (.pmul .kyber 0 1 2) (withPolys (poly [3329]) (poly [1, 2]) (poly [3, 4])) 0 4 =
    some [139, 10, 0, 0] := by decide +kernel
/-- V-N11. -/
theorem test_pmac : coefs (.pmac .dilithium 0 1 2)
    (withPolys (mkPoly fun _ => 5) (mkPoly fun _ => 8380416) (mkPoly fun _ => 8380416)) 0 2 = some [6, 6] := by
  decide +kernel
/-- The range row of PMAC: its destination is a source. -/
theorem test_pmac_range : status (.pmac .kyber 0 1 2) (withPolys (poly [3329]) zeroPoly zeroPoly) = some 0x406 := by
  decide +kernel

/-! ## Sampler and system (sections 2.5 and 2.6) -/

/-- V-C1. -/
theorem test_cbd_two : coefs (.cbd 0 .two) (withBytes 0 [0x03, 0x0C, 0x30, 0xC0, 0x0F, 0x33, 0xCC, 0x3C] 0) 0 16 =
    some [2, 0, 3327, 0, 0, 2, 0, 3327, 0, 0, 2, 2, 3327, 3327, 3327, 2] := by decide +kernel
/-- V-C5. -/
theorem test_cbd_three : coefs (.cbd 0 .three) (withBytes 0 [0x07, 0x00, 0x00, 0x38, 0x00, 0x00] 0) 0 8 =
    some [3, 0, 0, 0, 3326, 0, 0, 0] := by decide +kernel
/-- V-W1. -/
theorem test_wipe :
    next? (exec .wipe { (withArgs 1 2 3 4).writeP 3 (poly [0, 0, 0, 0, 0, 0, 0, 4]) with
        buf := [(5, 9)], spPhase := 1, spRate := 136, done := true, err := true, errcode := 1, cmd := 0xF0000000 })
      (fun t => (t.buf, coef (t.readP 3) 7, t.arg3, spongeWord t, statusWord t, t.cmd)) =
    some ([], 0, 0, 0, 0x106, 0xF0000000) := by decide +kernel

/-! ## Steps, the host's accesses, reset (section 2.8, P7, P8) -/

/-- P5, step 3: an illegal word in flight. -/
theorem test_step_illegal : next? (step (State.reset.withFetchWord 32 0)) (fun t => (statusWord t, t.cmd)) =
    some (0x106, 0) := by decide +kernel
/-- P5, step 1: a step runs the word placed for it. -/
theorem test_step_runs : next? (step (State.reset.withFetchWord 32 0x21000000)) (fun t => (statusWord t, t.cmd, t.env)) =
    some (0x206, 0x21000000, []) := by decide +kernel
/-- Reads while BUSY = 1: STATUS reads 1, CMD the accepted word, a read of BUF sets HZ. -/
theorem test_busy_reads :
    (hostStep (.read 0x008 4) (inFlight 0x42010000)).resp = some (.data 1) ∧
    (hostStep (.read 0x00C 4) (inFlight 0x42010000)).resp = some (.data 0x42010000) ∧
    statusWord (hostStep (.read 0x8000 4) (inFlight 0x42010000)) = 9 := by decide +kernel
/-- Writes while BUSY = 1: ARG0 and CMD are dropped and set HZ; STATUS clears it. -/
theorem test_busy_writes :
    (hostStep (.write 0x010 4 7) (inFlight 0x10000000)).arg0 = 0 ∧
    statusWord (hostStep (.write 0x010 4 7) (inFlight 0x10000000)) = 9 ∧
    (hostStep (.write 0x00C 4 0x11000000) (inFlight 0x10000000)).cur = 0x10000000 ∧
    statusWord (hostStep (.write 0x008 4 8) (inFlight 0x10000000).setHz) = 1 := by decide +kernel
/-- A 16-bit read at a register offset is a bus error and sets no HZ. -/
theorem test_bus_error : (hostStep (.read 0x010 2) (inFlight 0x10000000)).resp = some (.fault .hostBusError) ∧
    statusWord (hostStep (.read 0x010 2) (inFlight 0x10000000)) = 1 := by decide +kernel
/-- P7, step 5: KSL[0] and KSH[0] of V-P3, and the byte order of the window. -/
theorem test_ks_window :
    let s : State := { State.reset with ks := mkLanes fun i => if i = 0 then 0xE2A944396F0B13C6 else 0 }
    (hostStep (.read 0x100 4) s).resp = some (.data 0x6F0B13C6) ∧
    (hostStep (.read 0x104 4) s).resp = some (.data 0xE2A94439) ∧
    lane (hostStep (.write 0x1C4 4 1) s).ks 24 = 0x100000000 := by decide +kernel
/-- R83, R86: sizes and byte order in BUF, up to its last bytes. -/
theorem test_buf_window :
    (hostStep (.write 0xBFFE 2 0xAABB1234) State.reset).buf = [(16382, 0x34), (16383, 0x12)] ∧
    (hostStep (.read 0xBFFC 4) { State.reset with buf := [(16382, 0x34), (16383, 0x12)] }).resp =
      some (.data 0x12340000) ∧
    (hostStep (.write 0xC000 4 1) State.reset).buf = [] := by decide +kernel
/-- Section 2.8: WR CTRL 0x3 resets and leaves IE clear; P8, step 6: the command in flight is aborted. -/
theorem test_soft_reset :
    let t := hostStep (.write 0x004 4 3) { inFlight 0x42010000 with ie := true, hz := true, spPhase := 1 }
    ctrlWord t = 0 ∧ statusWord t = 0 ∧ t.cmd = 0 ∧ t.cur = 0 ∧ spongeWord t = 0 ∧ irq t = false := by decide +kernel
/-- Section 2.8: with IE set, irq rises with DONE; WR STATUS 4 leaves DONE and irq, WR STATUS 2 clears both. -/
theorem test_irq :
    let s : State := { State.reset with ie := true, done := true, err := true, errcode := 1 }
    statusWord s = 0x106 ∧ irq s = true ∧ statusWord (hostStep (.write 0x008 4 4) s) = 2 ∧
    irq (hostStep (.write 0x008 4 4) s) = true ∧ irq (hostStep (.write 0x008 4 2) s) = false := by decide +kernel
/-- R340: power-on reset is a step. -/
theorem test_power_on_reset :
    next? (step { inFlight 0x10000000 with env := [.powerOnReset, .core], ie := true })
      (fun t => (statusWord t, ctrlWord t, t.cur, t.env)) = some (0, 0, 0, [.core]) := by decide +kernel
/-- R120: the assembler form. -/
theorem test_asm : instrAsm (.pmac .dilithium 3 1 2) = "PMAC.D p3, p1, p2" := by decide +kernel

/-! ## Witnesses: states and operands that meet the hypotheses of each obligation -/

theorem witness_DecodeOfEncodeIsIdentity :
    (Instr.pmac .dilithium 15 0 15).wellFormed 16 = true ∧ (Instr.cbd 0 .three).wellFormed 1 = true := by decide

theorem witness_EncodeOfDecodeIsIdentity : decode 1 0x50000002 = some (.cbd 0 .two) := by decide

theorem witness_DecodeAgreesWithOpcodeTable :
    decode 16 0x45831200 = some (.pmac .dilithium 3 1 2) ∧
    (∃ r ∈ opcodeTable, (0x4100F000 : Word) &&& r.mask = r.pattern) ∧
    ∃ r ∈ opcodeTable, (0x40000000 : Word) &&& r.mask = r.pattern := by decide

theorem witness_ReservedBitsMakeIllegal :
    (inFlight 0x42100000).busy = true ∧ ((inFlight 0x42100000).cur.toNat / 1048576) % 8 ≠ 0 := by decide

theorem witness_IllegalWordOnlyReports :
    (0x12000000 : Word).toNat / 16777216 ∉ [0x10, 0x11, 0x20, 0x21, 0x22, 0x23, 0x30, 0x31, 0x32, 0x33, 0x34, 0x40, 0x41,
      0x42, 0x43, 0x44, 0x45, 0x50, 0xF0] ∧
    (inFlight 0x50000004).busy = true ∧ decode (inFlight 0x50000004).cfg.np (inFlight 0x50000004).cur = none := by decide

theorem witness_StepPerformsDecodedCommand :
    (inFlight 0x10000000).busy = true ∧ decode (inFlight 0x10000000).cfg.np (inFlight 0x10000000).cur = some .kperm ∧
    (inFlight 0x10000000).env = [] ∧ ({ inFlight 0x10000000 with env := [.core] } : State).env = .core :: [] ∧
    decode State.reset.cfg.np (BitVec.ofNat 32 (0x10000000 % 2 ^ 32)) = some .kperm := by decide

theorem witness_StepFollowsSchedule :
    ({ State.reset with env := [.host (.read 8 4)] } : State).env = .host (.read 8 4) :: [] ∧
    ({ State.reset with env := [.powerOnReset] } : State).env = .powerOnReset :: [] ∧
    ({ State.reset with env := [.core] } : State).busy = false ∧ State.reset.busy = false ∧ State.reset.env = [] := by
  decide

theorem witness_FlightEndsByCompletionOrReset :
    (inFlight 0x10000000).busy = true ∧ (∃ t, step (inFlight 0x10000000) = .next t) ∧
    ∃ t, step { inFlight 0x10000000 with env := [.host (.write 4 4 2)] } = .next t := ⟨rfl, ⟨_, rfl⟩, ⟨_, rfl⟩⟩

theorem witness_CommandsWriteOnlyTheirRegisters :
    (∃ t, exec .kperm State.reset = .next t) ∧ Instr.kperm ≠ .wipe ∧
    Instr.kperm ∉ [Instr.montr, .fqmul, .bred, .dred, .dcsub, .wipe] := ⟨⟨_, rfl⟩, by decide, by decide⟩

/-- The state of P8 after its second step, which a command has not completed: SABSORB in flight in phase ABSORB. -/
def absorbing : State :=
  { inSession 1 168 0 0 168 with buf := [(0, 1), (16383, 2)], busy := true, cur := 0x21000000, cmd := 0x21000000 }

theorem witness_StepKeepsInvariant : Inv absorbing ∧ ∃ t, step absorbing = .next t := by
  refine ⟨⟨by decide, by decide, ?_, by decide, by decide, by decide⟩, ?_⟩
  · intro r i _
    have h : coef (absorbing.readP r) i = 0 := by
      have : absorbing.readP r = zeroPoly := by
        simp [absorbing, inSession, withArgs, State.readP, State.reset, zeroPoly]
      rw [this, coef_zeroPoly]
    simp [h, qDilithium]
  · exact ⟨_, rfl⟩

theorem witness_SabsorbAbsorbsBytes :
    (inSession 1 168 167 16380 4).spPhase = 1 ∧
    argAddress (inSession 1 168 167 16380 4) + argLength (inSession 1 168 167 16380 4) ≤
      (inSession 1 168 167 16380 4).cfg.bufBytes := by decide

theorem witness_AbsorbPositionAndCount : (135 : BitVec 8) < 136 ∧ (0 : BitVec 8) < 168 := by decide

theorem witness_SabsorbInPieces :
    (inSession 1 136 0 0 0).spPhase = 1 ∧
    (16000 : Word).toNat + (300 : Word).toNat + (84 : Word).toNat ≤ (inSession 1 136 0 0 0).cfg.bufBytes ∧
    (inSession 1 136 0 0 0).cfg.bufBytes ≤ 16384 := by decide

theorem witness_SfinalPadsAndPermutes :
    (inSession 1 168 167 0 0).spPhase = 1 ∧ (inSession 1 168 167 0 0).spPos < (inSession 1 168 167 0 0).spRate ∧
    (inSession 1 168 167 0 0).spRate.toNat ≤ 168 ∧
    (inSession 1 136 0 0 0).spPos < (inSession 1 136 0 0 0).spRate := by decide

theorem witness_SsqueezeWritesStream :
    (inSession 2 168 168 16352 32).spPhase = 2 ∧
    argAddress (inSession 2 168 168 16352 32) + argLength (inSession 2 168 168 16352 32) ≤
      (inSession 2 168 168 16352 32).cfg.bufBytes := by decide

theorem witness_SqueezeStreamClosedForm :
    0 < (168 : BitVec 8).toNat ∧ (168 : BitVec 8).toNat < 255 ∧
    ({ ks := zeroLanes, pos := 168, perms := 0 } : SpongeRun).pos ≤ 168 ∧
    ({ ks := zeroLanes, pos := 0, perms := 0 } : SpongeRun).pos ≤ 136 := by decide

theorem witness_SsqueezeInPieces :
    (inSession 2 136 136 0 0).spPhase = 2 ∧
    (0 : Word).toNat + (16384 : Word).toNat + (0 : Word).toNat ≤ (inSession 2 136 136 0 0).cfg.bufBytes ∧
    (inSession 2 136 136 0 0).cfg.bufBytes ≤ 16384 := by decide

theorem witness_SessionEqualsOneShotSponge :
    (0 : Word).toNat + (168 : Word).toNat ≤ State.reset.cfg.bufBytes ∧
    (16256 : Word).toNat + (128 : Word).toNat ≤ State.reset.cfg.bufBytes := by decide

theorem witness_SpongePhaseMachine :
    (∃ t, exec .sabsorb (inSession 1 168 0 0 0) = .next t) ∧ (∃ t, exec (.sfinal 0x1F) (inSession 1 168 0 0 0) = .next t) ∧
    (∃ t, exec .ssqueeze (inSession 2 168 0 0 0) = .next t) ∧ (inSession 1 168 0 0 0).spPhase = 1 ∧
    (inSession 2 168 0 0 0).spPhase = 2 ∧ (inSession 2 168 0 0 0).spPhase ≠ 1 ∧ State.reset.spPhase ≠ 2 ∧
    Instr.kperm ∉ [Instr.sinit .shake128, .sinit .shake256, .sfinal 0, .kzero, .wipe] ∧
    (∀ d, Instr.kperm ≠ .sfinal d) :=
  ⟨⟨_, rfl⟩, ⟨_, rfl⟩, ⟨_, rfl⟩, by decide, by decide, by decide, by decide, by decide, fun _ => by simp⟩

theorem witness_DredAndDcsubReduce :
    (withArgs 0 0 16760833 0).arg2.toNat < 16760834 ∧ 16760834 ≤ (withArgs 0 0 16760834 0).arg2.toNat := by decide

theorem witness_PloadReadsPolynomial :
    argAddress (withArgs 15360 0 0 0) + 1024 ≤ (withArgs 15360 0 0 0).cfg.bufBytes ∧
    (∀ i < 256, ((withArgs 15360 0 0 0).buf.byte (15360 + 4 * i)).toNat < ringQ .kyber) ∧
    (∃ i < 256, ringQ .kyber ≤ ((withBytes 1020 [0x01, 0x0D] 0).buf.byte (4 * i)).toNat +
      256 * ((withBytes 1020 [0x01, 0x0D] 0).buf.byte (4 * i + 1)).toNat) :=
  ⟨by decide, fun _ _ => by simp [withArgs, State.reset, ringQ, qKyber], 255, by decide, by decide⟩

theorem witness_PstoreWritesPolynomial :
    argAddress (withArgs 15360 0 0 0) + 1024 ≤ (withArgs 15360 0 0 0).cfg.bufBytes := by decide

/-- Every coefficient q - 1 of Kyber's ring. -/
def top : State := { withPolys (mkPoly fun _ => 3328) (mkPoly fun _ => 3328) (mkPoly fun _ => 3328) with arg0 := 15360 }

/-- The coefficients of `top` are canonical in both rings. -/
theorem top_canonical (rg : Ring) (r : PReg) (h : r = 0 ∨ r = 1 ∨ r = 2) :
    ∀ i < 256, (coef (top.readP r) i).toNat < ringQ rg := by
  have e : top.readP r = mkPoly fun _ => 3328 := by rcases h with rfl | rfl | rfl <;> rfl
  intro i hi
  rw [e]
  cases rg <;> simp [hi, ringQ, qKyber, qDilithium]

theorem witness_PloadAfterPstoreRestores :
    argAddress top + 1024 ≤ top.cfg.bufBytes ∧ ∀ i < 256, (coef (top.readP 0) i).toNat < ringQ .kyber :=
  ⟨by decide, top_canonical .kyber 0 (by decide)⟩

theorem witness_NttAndInttComplete : ∀ i < 256, (coef (top.readP 1) i).toNat < ringQ .kyber :=
  top_canonical .kyber 1 (by decide)

theorem witness_TransformsRoundTrip : ∀ i < 256, (coef (top.readP 1) i).toNat < ringQ .dilithium :=
  top_canonical .dilithium 1 (by decide)

theorem witness_NttDilithiumEvaluates : ∀ i < 256, (coef (top.readP 0) i).toNat < 8380417 :=
  top_canonical .dilithium 0 (by decide)

theorem witness_NttKyberGivesResidues : ∀ i < 256, (coef (top.readP 0) i).toNat < 3329 :=
  top_canonical .kyber 0 (by decide)

theorem witness_NttProductIsNegacyclic :
    (∀ i < 256, (coef (top.readP 0) i).toNat < ringQ .kyber) ∧ ∀ i < 256, (coef (top.readP 1) i).toNat < ringQ .kyber :=
  ⟨top_canonical .kyber 0 (by decide), top_canonical .kyber 1 (by decide)⟩

theorem witness_PmulMultiplies :
    (∀ i < 256, (coef (top.readP 1) i).toNat < ringQ .kyber) ∧ ∀ i < 256, (coef (top.readP 2) i).toNat < ringQ .kyber :=
  ⟨top_canonical .kyber 1 (by decide), top_canonical .kyber 2 (by decide)⟩

theorem witness_PmacAccumulates :
    (∀ i < 256, (coef (top.readP 0) i).toNat < ringQ .dilithium) ∧
    (∀ i < 256, (coef (top.readP 1) i).toNat < ringQ .dilithium) ∧
    ∀ i < 256, (coef (top.readP 2) i).toNat < ringQ .dilithium :=
  ⟨top_canonical .dilithium 0 (by decide), top_canonical .dilithium 1 (by decide), top_canonical .dilithium 2 (by decide)⟩

theorem witness_NonCanonicalSourcesRaiseRange :
    ringQ .kyber ≤ (coef ((withPolys zeroPoly (mkPoly fun _ => 3329) zeroPoly).readP 1) 255).toNat ∧
    ringQ .dilithium ≤ (coef ((withPolys (mkPoly fun _ => 8380417) zeroPoly zeroPoly).readP 0) 0).toNat := by
  decide +kernel

theorem witness_BufferBoundsAreChecked :
    (inSession 1 168 0 16384 1).spPhase = 1 ∧
    (inSession 1 168 0 16384 1).cfg.bufBytes <
      argAddress (inSession 1 168 0 16384 1) + argLength (inSession 1 168 0 16384 1) ∧
    (inSession 2 168 0 0 16385).spPhase = 2 ∧
    (inSession 2 168 0 0 16385).cfg.bufBytes <
      argAddress (inSession 2 168 0 0 16385) + argLength (inSession 2 168 0 0 16385) ∧
    (withArgs 15361 0 0 0).cfg.bufBytes < argAddress (withArgs 15361 0 0 0) + 1024 ∧
    (withArgs 16257 0 0 0).cfg.bufBytes < argAddress (withArgs 16257 0 0 0) + 64 * etaVal .two ∧
    argLength (inSession 1 168 0 16384 0) = 0 ∧
    argAddress (inSession 1 168 0 16384 0) ≤ (inSession 1 168 0 16384 0).cfg.bufBytes ∧
    (inSession 1 168 0 16384 0).buf.wf := by decide

theorem witness_CbdSamples :
    argAddress (withArgs 16256 0 0 0) + 64 * etaVal .two ≤ (withArgs 16256 0 0 0).cfg.bufBytes ∧
    argAddress (withArgs 16192 0 0 0) + 64 * etaVal .three ≤ (withArgs 16192 0 0 0).cfg.bufBytes := by decide

theorem witness_MalformedAccessIsBusError :
    ((0x7FFC : Nat) < 0x8000 ∧ ¬ ((2 : Nat) = 4 ∧ 0x7FFC % 4 = 0)) ∧
    ((0x8000 : Nat) ≤ 0xFFFE ∧ 0xFFFE < 65536 ∧
      ¬ (((4 : Nat) = 1 ∨ (4 : Nat) = 2 ∨ (4 : Nat) = 4) ∧ 0xFFFE % 4 = 0)) := by decide

theorem witness_BusyAccessesAreDroppedAndFlagged :
    (inFlight 0x10000000).busy = true ∧ ((0xC : Nat) < 0x8000 ∧ 0xC % 4 = 0) ∧
    ¬ (((0xA : Nat) < 0x8000 ∧ (4 : Nat) = 4 ∧ 0xA % 4 = 0) ∨
      ((0x8000 : Nat) ≤ 0xA ∧ ((4 : Nat) = 1 ∨ (4 : Nat) = 2 ∨ (4 : Nat) = 4) ∧ 0xA % 4 = 0)) ∧
    ((0x8000 : Nat) ≤ 0xFFFF ∧ 0xFFFF < 65536 ∧ 0xFFFF % 1 = 0) ∧ (0xFFFF : Nat) ∉ [0x0, 0x4, 0x8, 0xC] ∧
    (0xC : Nat) ∉ [0x4, 0x8] := by decide

theorem witness_StatusAndCmdWrites : State.reset.busy = false := by decide

theorem witness_SoftResetWinsAndAborts : (3 : Word).getLsbD 1 = true ∧ (1 : Word).getLsbD 1 = false := by decide

theorem witness_BufWindowReadsAndWrites :
    State.reset.busy = false ∧ 16380 % 4 = 0 ∧ 16380 + 4 ≤ State.reset.cfg.bufBytes ∧
    State.reset.cfg.bufBytes ≤ 0x8000 := by decide

theorem witness_KeccakWindowReadsAndWrites : State.reset.busy = false ∧ 24 < 25 := by decide

theorem witness_IdleRegisterAccess :
    State.reset.busy = false ∧
    (0x2C % 4 = 0 ∧ 0x2C < 0x100) ∧ (0x1C8 % 4 = 0 ∧ 0x7FFC % 4 = 0 ∧ 0x7FFC < 0x8000) ∧
    (0x8000 + State.reset.cfg.bufBytes ≤ 0xC000 ∧ 0xC000 % 4 = 0 ∧ 0xC000 < 0x10000) ∧
    (0x8000 + State.reset.cfg.bufBytes ≤ 0xFFFF ∧ 0xFFFF % 1 = 0 ∧ 0xFFFF < 0x10000) := by decide

theorem witness_IrqFollowsDoneAndEnable :
    (∃ t, exec .kzero State.reset = .next t) ∧ (2 : Word).getLsbD 1 = true ∧
    ((1 : Word).getLsbD 0 = true ∧ (1 : Word).getLsbD 1 = false) ∧ (0 : Word).getLsbD 0 = false :=
  ⟨⟨_, rfl⟩, by decide, by decide, by decide⟩

theorem witness_CanonicalBuffersReadingAlikeAreEqual :
    Memory.wf [(0, 1), (7, 2)] ∧ ∀ a, Memory.byte [(0, 1), (7, 2)] a = Memory.byte [(0, 1), (7, 2)] a :=
  ⟨by decide, fun _ => rfl⟩

end Sys2Proof.Tests
end

section
/-! The step function: one equation for each shape of the schedule (R15, log 3), and the core's step when idle (R320). -/

namespace Sys2Proof.Machine

variable {s : State} {rest : List Event} {a : Access}

theorem coreStep_of_idle (idle : s.busy = false) : coreStep s = .next s := by
  simp [coreStep, idle]

theorem step_of_env_nil (henv : s.env = []) : step s = coreStep s := by
  simp [step, agentStep, henv]

theorem step_of_env_core (henv : s.env = .core :: rest) : step s = coreStep { s with env := rest } := by
  simp [step, agentStep, henv]

theorem step_of_env_host (henv : s.env = .host a :: rest) : step s = .next (hostStep a { s with env := rest }) := by
  simp [step, agentStep, henv]

theorem step_of_env_powerOnReset (henv : s.env = .powerOnReset :: rest) :
    step s = .next (State.blockReset { s with env := rest }) := by
  simp [step, agentStep, henv]

/-- Settles O8: each part is the step's equation for its shape of the schedule; where that equation hands over to the
core, an idle core adds nothing. -/
theorem stepFollowsSchedule : Obligations.StepFollowsSchedule := by
  intro s rest a
  refine ⟨step_of_env_host, step_of_env_powerOnReset, fun idle henv => ?core, fun idle henv => ?exhausted⟩
  case core => exact (step_of_env_core henv).trans (coreStep_of_idle idle)
  case exhausted => exact (step_of_env_nil henv).trans (coreStep_of_idle idle)

end Sys2Proof.Machine
end

section
/-! The canonical form of polynomials (R231) through the ring's operations: what a transform, a product, a sum or the
sampler returns is reduced modulo its q, whatever it is given (R230). -/

namespace Sys2Proof.Machine

theorem canon_mono {f : PolyReg} {q q' : Nat} (h : canon f q = true) (hq : q ≤ q') : canon f q' = true :=
  (canon_iff f q').2 fun i hi => ((canon_iff f q).1 h i hi).trans_le hq

theorem canon_mkPoly {g : Nat → Word} {q : Nat} (h : ∀ i, (g i).toNat < q) : canon (mkPoly g) q = true :=
  (canon_iff _ q).2 fun i hi => by simpa [hi] using h i

/-- A natural number reduced mod q and stored as a word (R9) is below q. -/
theorem toNat_ofNat_mod_lt {q : Nat} (hq : 0 < q) (n : Nat) : (BitVec.ofNat 32 (n % q)).toNat < q :=
  (BitVec.toNat_ofNat _ _ ▸ Nat.mod_le _ _).trans_lt (Nat.mod_lt n hq)

/-- An integer's Euclidean remainder (R10) stored as a word is below the modulus. -/
theorem toNat_ofInt_emod_lt {q : Nat} (hq : 0 < q) (x : Int) : (BitVec.ofInt 32 (x % q)).toNat < q := by
  have hnonneg : 0 ≤ x % q := Int.emod_nonneg x (by omega)
  have hlt : x % q < q := Int.emod_lt_of_pos x (by omega)
  obtain ⟨n, hn⟩ := Int.eq_ofNat_of_zero_le hnonneg
  rw [hn, BitVec.ofInt_natCast, BitVec.toNat_ofNat]
  exact (Nat.mod_le _ _).trans_lt (by omega)

theorem addMod_lt {q : Nat} (hq : 0 < q) (a b : Word) : (addMod q a b).toNat < q := toNat_ofNat_mod_lt hq _

theorem subMod_lt {q : Nat} (hq : 0 < q) (a b : Word) : (subMod q a b).toNat < q := toNat_ofInt_emod_lt hq _

theorem mulMod_lt {q : Nat} (hq : 0 < q) (z : Nat) (a : Word) : (mulMod q z a).toNat < q := toNat_ofNat_mod_lt hq _

theorem canon_ctLayer {q : Nat} (hq : 0 < q) (zeta : Nat → Nat) (f : PolyReg) (len : Nat) :
    canon (ctLayer q zeta f len) q = true := by
  refine canon_mkPoly fun j => ?_
  dsimp only
  split
  · exact addMod_lt hq _ _
  · exact subMod_lt hq _ _

theorem canon_scalePoly {q : Nat} (hq : 0 < q) (c : Nat) (f : PolyReg) : canon (scalePoly q c f) q = true :=
  canon_mkPoly fun _ => mulMod_lt hq _ _

theorem ringQ_pos (rg : Ring) : 0 < ringQ rg := by cases rg <;> decide

theorem ringQ_le_qDilithium (rg : Ring) : ringQ rg ≤ qDilithium := by cases rg <;> decide

/-- R235, R237: the last layer of a forward transform reduces every coefficient. -/
theorem canon_nttRing (rg : Ring) (f : PolyReg) : canon (nttRing rg f) (ringQ rg) = true := by
  cases rg <;> simp only [nttRing, ringQ, nttK, nttD, List.foldl_cons, List.foldl_nil]
  case kyber => exact canon_ctLayer (by decide) _ _ _
  case dilithium => exact canon_ctLayer (by decide) _ _ _

/-- R236, R238: the last scaling of an inverse transform reduces every coefficient. -/
theorem canon_inttRing (rg : Ring) (f : PolyReg) : canon (inttRing rg f) (ringQ rg) = true := by
  cases rg <;> simp only [inttRing, ringQ, inttK, inttD]
  case kyber => exact canon_scalePoly (by decide) _ _
  case dilithium => exact canon_scalePoly (by decide) _ _

theorem canon_mulRing (rg : Ring) (f g : PolyReg) : canon (mulRing rg f g) (ringQ rg) = true := by
  cases rg with
  | kyber =>
    refine canon_mkPoly fun j => ?_
    dsimp only
    split <;> exact toNat_ofNat_mod_lt (by decide) _
  | dilithium => exact canon_mkPoly fun j => mulMod_lt (by decide) _ _

theorem canon_addRing (rg : Ring) (f g : PolyReg) : canon (addRing rg f g) (ringQ rg) = true :=
  canon_mkPoly fun _ => addMod_lt (ringQ_pos rg) _ _

theorem canon_cbdPoly (eta : Nat) (bs : List Byte) : canon (cbdPoly eta bs) qKyber = true :=
  canon_mkPoly fun _ => toNat_ofInt_emod_lt (by decide) _

end Sys2Proof.Machine
end

section
/-! The position of the sponge (R35) through the loops of SABSORB (R172) and SSQUEEZE (R174), for the rates of R34. -/

namespace Sys2Proof.Machine

variable {rate : BitVec 8}

theorem absorbByte_pos_lt (r : SpongeRun) (b : Byte) (h : r.pos < rate) : (absorbByte rate r b).pos < rate := by
  unfold absorbByte
  dsimp only
  split
  · simp only [SpongeRun.permute]; bv_omega
  · next hne => simp only; bv_omega

/-- R35: absorbing keeps the position below the rate. -/
theorem absorb_pos_lt (bs : List Byte) (r : SpongeRun) (h : r.pos < rate) : (absorb rate r bs).pos < rate := by
  induction bs generalizing r with
  | nil => exact h
  | cons b bs ih => exact ih _ (absorbByte_pos_lt r b h)

theorem refill_pos_lt (r : SpongeRun) (hrate : 0 < rate) (h : r.pos ≤ rate) : (r.refill rate).pos < rate := by
  unfold SpongeRun.refill
  split
  · exact hrate
  · next hne => bv_omega

/-- R35: squeezing keeps the position at or below the rate. -/
theorem squeeze_pos_le (hrate : 0 < rate) (n : Nat) (r : SpongeRun) (h : r.pos ≤ rate) :
    (squeeze rate n r).2.pos ≤ rate := by
  induction n generalizing r with
  | zero => exact h
  | succ n ih =>
    have hlt := refill_pos_lt r hrate h
    exact ih _ (by simp only; bv_omega)

theorem squeeze_length (rate : BitVec 8) (n : Nat) (r : SpongeRun) : (squeeze rate n r).1.length = n := by
  induction n generalizing r with
  | zero => rfl
  | succ n ih => simp [squeeze, ih]

end Sys2Proof.Machine
end

section
/-! The invariant's parts, one by one: how the phases fix the sponge registers (R33 to R35), what writing a register of
P needs (R36), and what a failure or a completion leaves of the flags (R301, R302). -/

namespace Sys2Proof.Machine

variable {s t u : State}

theorem spongeOk_of_idle (hphase : s.spPhase = phaseIdle) (hrate : s.spRate = 0) (hpos : s.spPos = 0) : SpongeOk s := by
  simp [SpongeOk, hphase, hrate, hpos, phaseIdle, phaseAbsorb, phaseSqueeze]

theorem spongeOk_of_absorb (hphase : s.spPhase = phaseAbsorb) (hrate : s.spRate = 136 ∨ s.spRate = 168)
    (hpos : s.spPos < s.spRate) : SpongeOk s := by
  rcases hrate with hrate | hrate <;> simp_all [SpongeOk, phaseIdle, phaseAbsorb, phaseSqueeze]

theorem spongeOk_of_squeeze (hphase : s.spPhase = phaseSqueeze) (hrate : s.spRate = 136 ∨ s.spRate = 168)
    (hpos : s.spPos ≤ s.spRate) : SpongeOk s := by
  rcases hrate with hrate | hrate <;> simp_all [SpongeOk, phaseIdle, phaseAbsorb, phaseSqueeze]

/-- R34: outside phase IDLE the rate is one of the two of R171. -/
theorem SpongeOk.rate_of_ne_idle (h : SpongeOk s) (hphase : s.spPhase ≠ phaseIdle) :
    s.spRate = 136 ∨ s.spRate = 168 := by
  obtain ⟨-, hrate, hzero, -⟩ := h
  exact hrate.resolve_left fun h0 => hphase (hzero.1 h0)

theorem SpongeOk.pos_of_absorb (h : SpongeOk s) (hphase : s.spPhase = phaseAbsorb) : s.spPos < s.spRate := by
  obtain ⟨-, -, -, -, hpos, -⟩ := h
  exact hpos hphase

theorem SpongeOk.pos_of_squeeze (h : SpongeOk s) (hphase : s.spPhase = phaseSqueeze) : s.spPos ≤ s.spRate := by
  obtain ⟨-, -, -, -, -, hpos⟩ := h
  exact hpos hphase

/-- Both variants' rates are those of R34. -/
theorem variantRate_eq (v : Variant) : variantRate v = 136 ∨ variantRate v = 168 := by cases v <;> decide

theorem variantRate_pos (v : Variant) : 0 < variantRate v := by cases v <;> decide

theorem polyOk_of_zero (h : ∀ r, s.readP r = zeroPoly) : PolyOk s := by
  intro r i _
  rw [h r, coef_zeroPoly]
  exact ⟨by decide, fun _ => rfl⟩

/-- Writing an existing register with a polynomial that is canonical for the larger modulus. -/
theorem PolyOk.writeP (h : PolyOk s) {r : PReg} (hr : r.val < s.cfg.np) {f : PolyReg}
    (hf : canon f qDilithium = true) : PolyOk (s.writeP r f) := by
  intro k i hi
  rw [readP_writeP]
  split
  case isTrue hk => exact ⟨(canon_iff f _).1 hf i hi, fun hnp => absurd hr (by rw [← hk]; exact hnp.not_gt)⟩
  case isFalse => exact h k i hi

theorem err_code_bounds (e : Err) : e.code.toNat ≤ 4 ∧ e.code ≠ 0 := by cases e <;> decide

theorem errorOk_fail (e : Err) (s : State) : ErrorOk (s.fail e) :=
  ⟨(err_code_bounds e).1, fun _ => (err_code_bounds e).2, fun _ => rfl⟩

theorem errorOk_of_clear (herr : s.err = false) (hcode : s.errcode = 0) : ErrorOk s := by
  simp [ErrorOk, herr, hcode]

theorem flightOk_of_idle (hbusy : s.busy = false) (hcur : s.cur = 0) : FlightOk s :=
  ⟨fun _ => hcur, fun h => by simp [hbusy] at h⟩

end Sys2Proof.Machine
end

section
/-! The storage that a command's results may write keeps its part of the invariant: command by command. -/

namespace Sys2Proof.Machine

variable {s t u : State} {body : Except Err State}

/-- The part of the invariant that speaks of BUF, P and the sponge registers, not of the flags. -/
structure StorageOk (s : State) : Prop where
  buf : BufOk s
  poly : PolyOk s
  sponge : SpongeOk s

theorem Inv.storage (h : Inv s) : StorageOk s := ⟨h.buf, h.poly, h.sponge⟩

/-- A command whose body ends with results. -/
theorem storageOk_of_perform_ok (he : perform s (.ok u) = .next t) (hu : StorageOk u) : StorageOk t := by
  cases he
  exact ⟨hu.buf, hu.poly, hu.sponge⟩

/-- A command whose body checks first: an error leaves the storage (R306). -/
theorem StorageOk.of_perform (h : StorageOk s) (he : perform s body = .next t)
    (hok : ∀ u, body = .ok u → StorageOk u) : StorageOk t := by
  obtain ⟨u, hu, rfl⟩ | ⟨e, -, rfl⟩ := perform_cases he
  · have := hok u hu
    exact ⟨this.buf, this.poly, this.sponge⟩
  · exact ⟨h.buf, h.poly, h.sponge⟩

/-- A check that a body with results has passed. -/
theorem checked_eq_ok_iff {c : Prop} [Decidable c] {e : Err} :
    (if c then .error e else body) = .ok u ↔ ¬ c ∧ body = .ok u := by
  by_cases hc : c <;> simp [hc]

theorem inBounds_iff (c : Config) (a n : Nat) : inBounds c a n = true ↔ a + n ≤ c.bufBytes := by simp [inBounds]

theorem reg_lt_of_wellFormed {np : Nat} {i : Instr} (hi : i.wellFormed np = true) {r : PReg} (hr : r ∈ i.regs) :
    r.val < np := by
  simpa using List.all_eq_true.1 hi r hr

/-- `decode` gives well-formed commands only (R117, check 4). -/
theorem wellFormed_of_decode {np : Nat} {w : Word} {i : Instr} (h : decode np w = some i) :
    i.wellFormed np = true := by
  unfold decode at h
  split at h
  · exact (Option.filter_eq_some_iff.1 h).2
  · cases h

theorem StorageOk.writeP (h : StorageOk s) {r : PReg} (hr : r.val < s.cfg.np) {f : PolyReg}
    (hf : canon f qDilithium = true) : StorageOk (s.writeP r f) :=
  ⟨h.buf, h.poly.writeP hr hf, h.sponge⟩

/-- A command that may fail a check and otherwise writes one register of P with a canonical result. -/
theorem StorageOk.of_checked_writeP (h : StorageOk s) {c : Prop} [Decidable c] {e : Err} {r : PReg} {f : PolyReg}
    (he : perform s (if c then .error e else .ok (s.writeP r f)) = .next t) (hr : r.val < s.cfg.np)
    (hf : canon f qDilithium = true) : StorageOk t :=
  h.of_perform he fun u hu => by
    obtain ⟨-, hu⟩ := checked_eq_ok_iff.1 hu
    cases hu
    exact h.writeP hr hf

theorem StorageOk.writeBuf (h : StorageOk s) {a : Nat} {bs : List Byte} (hfit : a + bs.length ≤ s.cfg.bufBytes) :
    StorageOk { s with buf := s.buf.write a bs } :=
  ⟨⟨write_wf h.buf.1 a bs, write_below h.buf.2 hfit⟩, h.poly, h.sponge⟩

theorem storageOk_sinit (h : StorageOk s) {v : Variant} (he : execSinit v s = .next t) : StorageOk t :=
  storageOk_of_perform_ok he
    ⟨h.buf, h.poly, spongeOk_of_absorb rfl (variantRate_eq v) (variantRate_pos v)⟩

theorem storageOk_sabsorb (h : StorageOk s) (he : execSabsorb s = .next t) : StorageOk t :=
  h.of_perform he fun u hu => by
    simp only [checked_eq_ok_iff, Decidable.not_not] at hu
    obtain ⟨hphase, -, hu⟩ := hu
    cases hu
    have hrate := h.sponge.rate_of_ne_idle (by rw [hphase]; decide)
    exact ⟨h.buf, h.poly, spongeOk_of_absorb hphase hrate (absorb_pos_lt _ _ (h.sponge.pos_of_absorb hphase))⟩

theorem storageOk_sfinal (h : StorageOk s) {ds : Byte} (he : execSfinal ds s = .next t) : StorageOk t :=
  h.of_perform he fun u hu => by
    simp only [checked_eq_ok_iff, Decidable.not_not] at hu
    obtain ⟨hphase, hu⟩ := hu
    cases hu
    have hrate := h.sponge.rate_of_ne_idle (by rw [hphase]; decide)
    exact ⟨h.buf, h.poly, spongeOk_of_squeeze rfl hrate (Nat.zero_le _)⟩

theorem storageOk_ssqueeze (h : StorageOk s) (he : execSsqueeze s = .next t) : StorageOk t :=
  h.of_perform he fun u hu => by
    simp only [checked_eq_ok_iff, Decidable.not_not, Bool.not_eq_true', Bool.not_eq_false, inBounds_iff] at hu
    obtain ⟨hphase, hfit, hu⟩ := hu
    cases hu
    have hrate := h.sponge.rate_of_ne_idle (by rw [hphase]; decide)
    have hpos : 0 < s.spRate := by rcases hrate with e | e <;> rw [e] <;> decide
    have hbuf := h.writeBuf (bs := (squeeze s.spRate (argLength s) s.spongeRun).1) (by rwa [squeeze_length])
    exact ⟨hbuf.buf, h.poly,
      spongeOk_of_squeeze hphase hrate (squeeze_pos_le hpos _ _ (h.sponge.pos_of_squeeze hphase))⟩

theorem storageOk_pload (h : StorageOk s) {rg : Ring} {rd : PReg} (hrd : rd.val < s.cfg.np)
    (he : execPload rg rd s = .next t) : StorageOk t :=
  h.of_perform he fun u hu => by
    simp only [checked_eq_ok_iff, Bool.not_eq_true', Bool.not_eq_false] at hu
    obtain ⟨-, hcanon, hu⟩ := hu
    cases hu
    exact h.writeP hrd (canon_mono hcanon (ringQ_le_qDilithium rg))

theorem polyBytes_length (f : PolyReg) : (polyBytes f).length = 1024 := by
  simp only [polyBytes, List.length_flatMap, leBytes_length, List.map_const', Vector.length_toList, List.sum_replicate]
  decide

theorem storageOk_pstore (h : StorageOk s) {rs1 : PReg} (he : execPstore rs1 s = .next t) : StorageOk t :=
  h.of_perform he fun u hu => by
    simp only [checked_eq_ok_iff, Bool.not_eq_true', Bool.not_eq_false, inBounds_iff] at hu
    obtain ⟨hfit, hu⟩ := hu
    cases hu
    exact h.writeBuf (by rwa [polyBytes_length])

theorem storageOk_wipe (he : execWipe s = .next t) : StorageOk t :=
  storageOk_of_perform_ok he
    ⟨⟨nil_wf, by simp⟩, polyOk_of_zero fun r => by simp [State.readP], spongeOk_of_idle rfl rfl rfl⟩

/-- R33 to R36: a well-formed command keeps the storage in form; what it writes to P is canonical for one of the two
moduli, hence for the larger. -/
theorem exec_keeps_storage {i : Instr} (h : StorageOk s) (hi : i.wellFormed s.cfg.np = true)
    (he : exec i s = .next t) : StorageOk t := by
  cases i with
  | kperm | montr | fqmul | bred | dred => exact storageOk_of_perform_ok (s := s) he ⟨h.buf, h.poly, h.sponge⟩
  | kzero => exact storageOk_of_perform_ok (s := s) he ⟨h.buf, h.poly, spongeOk_of_idle rfl rfl rfl⟩
  | sinit v => exact storageOk_sinit h he
  | sabsorb => exact storageOk_sabsorb h he
  | sfinal ds => exact storageOk_sfinal h he
  | ssqueeze => exact storageOk_ssqueeze h he
  | dcsub =>
    refine h.of_perform he fun u hu => ?_
    obtain ⟨-, hu⟩ := checked_eq_ok_iff.1 hu
    cases hu
    exact ⟨h.buf, h.poly, h.sponge⟩
  | pload rg rd => exact storageOk_pload h (reg_lt_of_wellFormed hi (by simp [Instr.regs])) he
  | pstore rs1 => exact storageOk_pstore h he
  | ntt rg rd rs1 =>
    exact h.of_checked_writeP he (reg_lt_of_wellFormed hi (by simp [Instr.regs]))
      (canon_mono (canon_nttRing rg _) (ringQ_le_qDilithium rg))
  | intt rg rd rs1 =>
    exact h.of_checked_writeP he (reg_lt_of_wellFormed hi (by simp [Instr.regs]))
      (canon_mono (canon_inttRing rg _) (ringQ_le_qDilithium rg))
  | pmul rg rd rs1 rs2 =>
    exact h.of_checked_writeP he (reg_lt_of_wellFormed hi (by simp [Instr.regs]))
      (canon_mono (canon_mulRing rg _ _) (ringQ_le_qDilithium rg))
  | pmac rg rd rs1 rs2 =>
    exact h.of_checked_writeP he (reg_lt_of_wellFormed hi (by simp [Instr.regs]))
      (canon_mono (canon_addRing rg _ _) (ringQ_le_qDilithium rg))
  | cbd rd eta =>
    exact h.of_checked_writeP he (reg_lt_of_wellFormed hi (by simp [Instr.regs]))
      (canon_mono (canon_cbdPoly _ _) (by decide))
  | wipe => exact storageOk_wipe he

end Sys2Proof.Machine
end

section
/-! The invariant through every kind of step: the command in flight, a host access, a reset. -/

namespace Sys2Proof.Machine

variable {s t u : State}

/-- R306: a failed command reports, and leaves the rest of the invariant as it was. -/
theorem Inv.fail (h : Inv s) (e : Err) : Inv (s.fail e) :=
  ⟨h.cfg, h.buf, h.poly, h.sponge, errorOk_fail e s, flightOk_of_idle rfl rfl⟩

theorem Inv.with_env (h : Inv s) (rest : List Event) : Inv { s with env := rest } :=
  ⟨h.cfg, h.buf, h.poly, h.sponge, h.error, h.flight⟩

theorem Inv.with_resp (h : Inv s) (r : Option Response) : Inv { s with resp := r } :=
  ⟨h.cfg, h.buf, h.poly, h.sponge, h.error, h.flight⟩

/-- R350: the flag of a disallowed access is no part of the invariant. -/
theorem Inv.setHz (h : Inv s) (r : Option Response) (n : Nat) : Inv { s.setHz with resp := r, freeCount := n } :=
  ⟨h.cfg, h.buf, h.poly, h.sponge, h.error, h.flight⟩

/-- R50: every polynomial register is zero after reset. -/
theorem readP_reset (r : PReg) : State.reset.readP r = zeroPoly := by
  simp [State.readP, State.reset, zeroPoly]

/-- R341: a reset needs nothing of the state but its configuration. -/
theorem inv_blockReset (h : s.cfg.legal) : Inv s.blockReset :=
  ⟨h, ⟨nil_wf, by simp [State.reset]⟩, polyOk_of_zero readP_reset, spongeOk_of_idle rfl rfl rfl, errorOk_of_clear rfl rfl,
    flightOk_of_idle rfl rfl⟩

theorem Inv.clearStatus (h : Inv s) (v : Word) : Inv (s.clearStatus v) := by
  refine ⟨h.cfg, h.buf, h.poly, h.sponge, ?error, ?flight⟩
  case error =>
    cases hv : v.getLsbD 2
    · simpa only [ErrorOk, clearStatus_err, clearStatus_errcode, hv, Bool.not_false, Bool.and_true, Bool.false_eq_true,
        if_false] using h.error
    · exact errorOk_of_clear (by rw [clearStatus_err, hv]; simp) (by rw [clearStatus_errcode, hv]; simp)
  case flight =>
    obtain ⟨hidle, hbusy⟩ := h.flight
    exact ⟨hidle, fun hb => ⟨(hbusy hb).1, by simp [(hbusy hb).2]⟩⟩

theorem Inv.writeCtrl (h : Inv s) (v : Word) : Inv (s.writeCtrl v) := by
  unfold State.writeCtrl
  split
  · exact inv_blockReset h.cfg
  · exact ⟨h.cfg, h.buf, h.poly, h.sponge, h.error, h.flight⟩

theorem Inv.accept (h : Inv s) (w : Word) : Inv (s.accept w) :=
  ⟨h.cfg, h.buf, h.poly, h.sponge, h.error, fun hb => (by simp at hb), fun _ => ⟨rfl, rfl⟩⟩

theorem Inv.writeBuf (h : Inv s) {a : Nat} {bs : List Byte} (hfit : a + bs.length ≤ s.cfg.bufBytes) :
    Inv { s with buf := s.buf.write a bs } :=
  ⟨h.cfg, (h.storage.writeBuf hfit).buf, h.poly, h.sponge, h.error, h.flight⟩

/-- A write to any target keeps the invariant, as long as it stays within BUF. -/
theorem Inv.writeTarget (h : Inv s) {tg : Target} {size : Nat} (v : Word)
    (hfit : ∀ a, tg = .buf a → a + size ≤ s.cfg.bufBytes) : Inv (writeTarget tg size v s) := by
  cases tg with
  | id | res | res2 | sponge | reserved => exact h
  | ctrl => exact h.writeCtrl v
  | status => exact h.clearStatus v
  | cmd => exact h.accept v
  | arg0 | arg1 | arg2 | arg3 | ksl | ksh => exact ⟨h.cfg, h.buf, h.poly, h.sponge, h.error, h.flight⟩
  | buf a => exact h.writeBuf (by simpa using hfit a rfl)

theorem controlRegister_ne_buf (off a : Nat) : controlRegister off ≠ .buf a := by
  unfold controlRegister
  split <;> exact nofun

/-- R82, R83, R8: a well-formed access that begins in BUF ends in it, since BUF_BYTES is a multiple of 4. -/
theorem buf_access_fits {c : Config} (hc : c.legal) {off size a : Nat} (hok : accessOk off size = true)
    (htg : target c off = .buf a) : a + size ≤ c.bufBytes := by
  obtain ⟨-, -, hmult, -⟩ := hc
  rcases target_cases c off with ⟨-, e⟩ | ⟨i, -, -, e⟩ | ⟨i, -, -, e⟩ | ⟨hlow, hhigh, e⟩ | ⟨-, e⟩ <;> rw [e] at htg
  case inr.inr.inr.inl =>
    obtain rfl := Target.buf.inj htg
    obtain ⟨h, -⟩ | ⟨-, rfl | rfl | rfl, halign⟩ := (accessOk_iff off size).1 hok <;> omega
  case inl => exact absurd htg (controlRegister_ne_buf off a)
  all_goals cases htg

theorem Inv.hostStep (h : Inv s) (a : Access) : Inv (hostStep a s) := by
  obtain ⟨r, e⟩ | ⟨-, r, n, e⟩ | ⟨addr, size, v, off, -, -, hok, -, e⟩ := hostStep_cases a s <;> rw [e]
  · exact h.with_resp r
  · exact h.setHz r n
  · exact (h.writeTarget v fun _ htg => buf_access_fits h.cfg hok htg).with_resp _

/-- R301, R302: a well-formed command keeps the invariant. -/
theorem Inv.exec (h : Inv s) {i : Instr} (hi : i.wellFormed s.cfg.np = true) (he : exec i s = .next t) : Inv t := by
  have hst := exec_keeps_storage h.storage hi he
  obtain ⟨body, hb, -, hframe⟩ := exec_body i s
  rw [hb] at he
  obtain ⟨u, hu, rfl⟩ | ⟨e, -, rfl⟩ := perform_cases he
  · have hf := hframe u hu
    refine ⟨?_, hst.buf, hst.poly, hst.sponge, ?_, flightOk_of_idle rfl rfl⟩
    · simpa [hf.cfg] using h.cfg
    · simpa [ErrorOk, hf.err, hf.errcode] using h.error
  · exact h.fail e

theorem Inv.coreStep (h : Inv s) (he : coreStep s = .next t) : Inv t := by
  obtain ⟨-, e⟩ | ⟨-, e⟩ := coreStep_cases s <;> rw [e] at he
  · obtain ⟨i, hi, e⟩ | ⟨-, e⟩ := performCommand_cases s <;> rw [e] at he
    · exact h.exec (wellFormed_of_decode hi) he
    · cases he
      exact h.fail .illegal
  · cases he
    exact h

/-- Settles O13: a step is the core's, a host access or a power-on reset, and each keeps the invariant. -/
theorem stepKeepsInvariant : Obligations.StepKeepsInvariant := by
  intro s t h hstep
  obtain ⟨-, e⟩ | ⟨rest, -, e⟩ | ⟨a, rest, -, e⟩ | ⟨rest, -, e⟩ := step_cases s <;> rw [e] at hstep
  · exact h.coreStep hstep
  · exact (h.with_env rest).coreStep hstep
  · cases hstep
    exact (h.with_env rest).hostStep a
  · cases hstep
    exact inv_blockReset (s := { s with env := rest }) h.cfg

end Sys2Proof.Machine
end

section
/-! The frame of a command (R38, R39, R48), from what its body leaves alone. -/

namespace Sys2Proof.Machine

/-- Settles O12: a command's results come with the frame of its body, and a failure writes no register at all. -/
theorem commandsWriteOnlyTheirRegisters : Obligations.CommandsWriteOnlyTheirRegisters := by
  intro i s t he
  obtain ⟨body, hb, -, hframe⟩ := exec_body i s
  rw [hb] at he
  obtain ⟨u, hu, rfl⟩ | ⟨e, -, rfl⟩ := perform_cases he
  · have hf := hframe u hu
    exact ⟨hf.cfg, hf.ie, hf.hz, hf.cmd, hf.env, hf.resp, hf.freeCount, hf.args, hf.results⟩
  · exact ⟨rfl, rfl, rfl, rfl, rfl, rfl, rfl, fun _ => ⟨rfl, rfl, rfl, rfl⟩, fun _ => ⟨rfl, rfl⟩⟩

end Sys2Proof.Machine
end

section
/-! The words of STATUS, CTRL and SPONGE as numbers, and the fields of a word as arithmetic on its number (R9). -/

namespace Sys2Proof.Machine

variable {w : Word}

theorem getLsbD_of_toNat {i : Nat} {b : Bool} (h : w.toNat / 2 ^ i % 2 = b.toNat) : w.getLsbD i = b := by
  rw [BitVec.getLsbD, Nat.testBit_eq_decide_div_mod_eq, h]
  cases b <;> rfl

theorem extractLsb'_of_toNat {lo len : Nat} {v : BitVec len} (h : w.toNat / 2 ^ lo % 2 ^ len = v.toNat) :
    w.extractLsb' lo len = v :=
  BitVec.eq_of_toNat_eq (by rw [BitVec.extractLsb'_toNat, Nat.shiftRight_eq_div_pow, h])

theorem extractLsb'_eq_zero_of_toNat {lo len : Nat} (h : w.toNat / 2 ^ lo % 2 ^ len = 0) : w.extractLsb' lo len = 0 :=
  extractLsb'_of_toNat (h.trans BitVec.toNat_zero.symm)

theorem statusWord_toNat (s : State) :
    (statusWord s).toNat =
      s.busy.toNat + 2 * s.done.toNat + 4 * s.err.toNat + 8 * s.hz.toNat + 256 * s.errcode.toNat := by
  have := s.busy.toNat_le
  have := s.done.toNat_le
  have := s.err.toNat_le
  have := s.hz.toNat_le
  have := s.errcode.isLt
  rw [statusWord, BitVec.toNat_ofNat]
  omega

theorem ctrlWord_toNat (s : State) : (ctrlWord s).toNat = s.ie.toNat := by
  have := s.ie.toNat_le
  rw [ctrlWord, BitVec.toNat_ofNat]
  omega

theorem spongeWord_toNat (s : State) :
    (spongeWord s).toNat = s.spPos.toNat + 0x100 * s.spRate.toNat + 0x10000 * s.spPhase.toNat := by
  have := s.spPos.isLt
  have := s.spRate.isLt
  have := s.spPhase.isLt
  rw [spongeWord, BitVec.toNat_ofNat]
  omega

/-- R42: BUSY, DONE, ERR and HZ in bits 0 to 3. -/
theorem statusWord_flags (s : State) :
    (statusWord s).getLsbD 0 = s.busy ∧ (statusWord s).getLsbD 1 = s.done ∧ (statusWord s).getLsbD 2 = s.err ∧
      (statusWord s).getLsbD 3 = s.hz := by
  have := s.busy.toNat_le
  have := s.done.toNat_le
  have := s.err.toNat_le
  have := s.hz.toNat_le
  refine ⟨getLsbD_of_toNat ?_, getLsbD_of_toNat ?_, getLsbD_of_toNat ?_, getLsbD_of_toNat ?_⟩ <;>
    rw [statusWord_toNat] <;> omega

/-- R42: ERRCODE in bits 11:8, the other bits above HZ reading 0. -/
theorem statusWord_fields (s : State) :
    (statusWord s).extractLsb' 4 4 = 0 ∧ (statusWord s).extractLsb' 8 4 = s.errcode ∧
      (statusWord s).extractLsb' 12 20 = 0 := by
  have := s.busy.toNat_le
  have := s.done.toNat_le
  have := s.err.toNat_le
  have := s.hz.toNat_le
  have := s.errcode.isLt
  refine ⟨extractLsb'_eq_zero_of_toNat ?_, extractLsb'_of_toNat ?_, extractLsb'_eq_zero_of_toNat ?_⟩ <;>
    rw [statusWord_toNat] <;> omega

/-- R41: IE in bit 0. -/
theorem ctrlWord_fields (s : State) : (ctrlWord s).getLsbD 0 = s.ie ∧ (ctrlWord s).extractLsb' 1 31 = 0 := by
  have := s.ie.toNat_le
  exact ⟨getLsbD_of_toNat (by rw [ctrlWord_toNat]; omega),
    extractLsb'_eq_zero_of_toNat (by rw [ctrlWord_toNat]; omega)⟩

/-- R44: SP_POS, SP_RATE and SP_PHASE. -/
theorem spongeWord_fields (s : State) :
    (spongeWord s).extractLsb' 0 8 = s.spPos ∧ (spongeWord s).extractLsb' 8 8 = s.spRate ∧
      (spongeWord s).extractLsb' 16 2 = s.spPhase ∧ (spongeWord s).extractLsb' 18 14 = 0 := by
  have := s.spPos.isLt
  have := s.spRate.isLt
  have := s.spPhase.isLt
  refine ⟨extractLsb'_of_toNat ?_, extractLsb'_of_toNat ?_, extractLsb'_of_toNat ?_, extractLsb'_eq_zero_of_toNat ?_⟩ <;>
    rw [spongeWord_toNat] <;> omega

/-- Settles O55, register by register; `irq` is R49's formula. -/
theorem registerWordsHaveTheirFields : Obligations.RegisterWordsHaveTheirFields := by
  intro s
  obtain ⟨hbusy, hdone, herr, hhz⟩ := statusWord_flags s
  obtain ⟨hlow, hcode, hhigh⟩ := statusWord_fields s
  obtain ⟨hie, hctrl⟩ := ctrlWord_fields s
  obtain ⟨hpos, hrate, hphase, hsponge⟩ := spongeWord_fields s
  exact ⟨hbusy, hdone, herr, hhz, hlow, hcode, hhigh, hie, hctrl, hpos, hrate, hphase, hsponge, rfl⟩

end Sys2Proof.Machine
end

section
/-! The buffer's canonical form (log 16): a list in rising order without zero bytes is determined by what it reads. -/

namespace Sys2Proof.Machine

variable {c d : Host.Cell} {m n : Memory}

theorem wf_tail (h : Memory.wf (c :: m)) : m.wf :=
  ⟨(List.pairwise_cons.1 h.1).2, fun d hd => h.2 d (List.mem_cons_of_mem c hd)⟩

theorem byte_head (c : Host.Cell) (m : Memory) : Memory.byte (c :: m) c.1 = c.2 := by rw [byte_cons, if_pos rfl]

theorem head_ne_zero (h : Memory.wf (c :: m)) : c.2 ≠ 0 := h.2 c List.mem_cons_self

/-- The tail of a rising list reads 0 up to the head's address. -/
theorem byte_tail_of_le (h : Memory.wf (c :: m)) {x : Nat} (hx : x ≤ c.1) : m.byte x = 0 :=
  byte_of_not_listed fun d hd => by
    have := (List.pairwise_cons.1 h.1).1 d hd
    omega

/-- The first listed address is the first that does not read 0. -/
theorem head_le_of_byte_eq (hm : Memory.wf (c :: m)) (hn : Memory.wf (d :: n))
    (h : ∀ a, Memory.byte (c :: m) a = Memory.byte (d :: n) a) : d.1 ≤ c.1 := by
  by_contra hlt
  have hzero : Memory.byte (d :: n) c.1 = 0 := by
    rw [byte_cons, if_neg (by omega)]
    exact byte_tail_of_le hn (by omega)
  exact head_ne_zero hm (by rw [← byte_head c m, h, hzero])

/-- Lists that read alike and have one head have tails that read alike. -/
theorem byte_tail_eq (hm : Memory.wf (c :: m)) (hn : Memory.wf (c :: n))
    (h : ∀ a, Memory.byte (c :: m) a = Memory.byte (c :: n) a) (a : Nat) : m.byte a = n.byte a := by
  by_cases ha : c.1 = a
  · rw [byte_tail_of_le hm ha.ge, byte_tail_of_le hn ha.ge]
  · simpa only [byte_cons, if_neg ha] using h a

/-- Settles O60, by induction on one list: the heads agree in address and byte, and then the tails read alike. -/
theorem canonicalBuffersReadingAlikeAreEqual : Obligations.CanonicalBuffersReadingAlikeAreEqual := by
  intro m
  induction m with
  | nil =>
    intro n _ hn h
    cases n with
    | nil => rfl
    | cons d n => exact absurd ((byte_head d n).symm.trans (h d.1).symm) (head_ne_zero hn)
  | cons c m ih =>
    intro n hm hn h
    cases n with
    | nil => exact absurd ((byte_head c m).symm.trans (h c.1)) (head_ne_zero hm)
    | cons d n =>
      have haddr : d.1 = c.1 := (head_le_of_byte_eq hm hn h).antisymm (head_le_of_byte_eq hn hm fun a => (h a).symm)
      have hbyte : d.2 = c.2 := by rw [← byte_head d n, ← h, haddr, byte_head]
      obtain rfl : d = c := Prod.ext haddr hbyte
      rw [ih n (wf_tail hm) (wf_tail hn) (byte_tail_eq hm hn h)]

end Sys2Proof.Machine
end

section
/-! The reset state (R50): its invariant, and its values piece by piece. -/

namespace Sys2Proof.Machine

/-- Settles O14: the reset state is what a reset makes of itself. -/
theorem resetHasInvariant : Obligations.ResetHasInvariant := inv_blockReset (s := State.reset) (by decide)

/-- Settles O15: the arrays read 0 everywhere, and every register and register word evaluates to its value. -/
theorem resetStateHoldsSpecValues : Obligations.ResetStateHoldsSpecValues := by
  refine ⟨fun i _ => lane_zeroLanes i, rfl, rfl, rfl, fun r i _ => ?poly, byte_nil, ?registers⟩
  case poly => rw [readP_reset, coef_zeroPoly]
  case registers => decide

end Sys2Proof.Machine
end

section
/-! The host port of an idle block: what one access in the window does, and the offsets of the KS window and of the
reserved ranges (R45, R51, R85). -/

namespace Sys2Proof.Machine

variable {s : State}

theorem hostStep_read_of_idle (idle : s.busy = false) {off size : Nat} (hoff : off < 65536)
    (hok : accessOk off size = true) :
    hostStep (.read (s.cfg.coreBase + off) size) s =
      { s with resp := some (.data (readTarget (target s.cfg off) size s)) } := by
  rw [hostStep_read s off size hoff hok, if_neg (by simp [idle])]

theorem hostStep_write_of_idle (idle : s.busy = false) {off size : Nat} (v : Word) (hoff : off < 65536)
    (hok : accessOk off size = true) :
    hostStep (.write (s.cfg.coreBase + off) size v) s =
      { writeTarget (target s.cfg off) size v s with resp := some .ack } := by
  rw [hostStep_write s off size v hoff hok, if_neg (by simp [idle])]

theorem target_ksl (c : Config) {i : Nat} (hi : i < 25) : target c (0x100 + 8 * i) = .ksl i := by
  unfold target
  rw [if_neg (by omega), if_pos (by omega), if_pos (by omega)]
  congr 1
  omega

theorem target_ksh (c : Config) {i : Nat} (hi : i < 25) : target c (0x104 + 8 * i) = .ksh i := by
  unfold target
  rw [if_neg (by omega), if_pos (by omega), if_neg (by omega)]
  congr 1
  omega

theorem target_control (c : Config) {off : Nat} (hoff : off < 0x100) : target c off = controlRegister off := if_pos hoff

theorem controlRegister_of_ge {off : Nat} (hoff : 0x2C ≤ off) : controlRegister off = .reserved := by
  unfold controlRegister
  split
  case h_12 => rfl
  all_goals omega

/-- R51, R85: the offsets between the registers, between the KS window and BUF, and above BUF. -/
theorem target_reserved (c : Config) {off : Nat}
    (hoff : (0x2C ≤ off ∧ off < 0x100) ∨ (0x1C8 ≤ off ∧ off < 0x8000) ∨ 0x8000 + c.bufBytes ≤ off) :
    target c off = .reserved := by
  rcases target_cases c off with ⟨-, e⟩ | ⟨i, hi, hrange, -⟩ | ⟨i, hi, hrange, -⟩ | ⟨hlow, hhigh, -⟩ | ⟨-, e⟩
  case inl => exact e.trans (controlRegister_of_ge (by omega))
  case inr.inr.inr.inr => exact e
  all_goals omega

theorem accessOk_below_buf {off : Nat} (hoff : off < 0x8000) (halign : off % 4 = 0) : accessOk off 4 = true :=
  (accessOk_iff off 4).2 (.inl ⟨hoff, rfl, halign⟩)

/-- R45: the written half of lane i, with its other half kept, and every other lane kept. -/
theorem lane_setLaneHalf (A : KeccakState) (i : Nat) (high : Bool) (v : Word) {j : Nat} (hj : j < 25) :
    lane (setLaneHalf A i high v) j =
      if j = i then
        if high then v ++ (lane A j).extractLsb' 0 32 else (lane A j).extractLsb' 32 32 ++ v
      else lane A j := by
  rw [setLaneHalf, lane_mkLanes, if_pos hj, BitVec.setWidth_ushiftRight_eq_extractLsb,
    BitVec.setWidth_eq_extractLsb' (by decide)]

theorem hostStep_write_ksl (idle : s.busy = false) {i : Nat} (hi : i < 25) (v : Word) :
    hostStep (.write (s.cfg.coreBase + (0x100 + 8 * i)) 4 v) s =
      { s with ks := setLaneHalf s.ks i false v, resp := some .ack } := by
  rw [hostStep_write_of_idle idle v (by omega) (accessOk_below_buf (by omega) (by omega)), target_ksl _ hi]
  rfl

theorem hostStep_write_ksh (idle : s.busy = false) {i : Nat} (hi : i < 25) (v : Word) :
    hostStep (.write (s.cfg.coreBase + (0x104 + 8 * i)) 4 v) s =
      { s with ks := setLaneHalf s.ks i true v, resp := some .ack } := by
  rw [hostStep_write_of_idle idle v (by omega) (accessOk_below_buf (by omega) (by omega)), target_ksh _ hi]
  rfl

theorem hostStep_read_ksl (idle : s.busy = false) {i : Nat} (hi : i < 25) :
    hostStep (.read (s.cfg.coreBase + (0x100 + 8 * i)) 4) s =
      { s with resp := some (.data ((lane s.ks i).extractLsb' 0 32)) } := by
  rw [hostStep_read_of_idle idle (by omega) (accessOk_below_buf (by omega) (by omega)), target_ksl _ hi, readTarget,
    BitVec.setWidth_eq_extractLsb' (by decide)]

theorem hostStep_read_ksh (idle : s.busy = false) {i : Nat} (hi : i < 25) :
    hostStep (.read (s.cfg.coreBase + (0x104 + 8 * i)) 4) s =
      { s with resp := some (.data ((lane s.ks i).extractLsb' 32 32)) } := by
  rw [hostStep_read_of_idle idle (by omega) (accessOk_below_buf (by omega) (by omega)), target_ksh _ hi, readTarget,
    BitVec.setWidth_ushiftRight_eq_extractLsb]

/-- Settles O57: each access is one half of one lane, and the written lanes are those of `lane_setLaneHalf`. -/
theorem keccakWindowReadsAndWrites : Obligations.KeccakWindowReadsAndWrites := by
  intro s i v idle hi low high
  have hlow : low = { s with ks := setLaneHalf s.ks i false v, resp := some .ack } := hostStep_write_ksl idle hi v
  have hhigh : high = { s with ks := setLaneHalf s.ks i true v, resp := some .ack } := hostStep_write_ksh idle hi v
  rw [hlow, hhigh]
  refine ⟨rfl, rfl, ?lowLane, ?highLane, fun j hj hne => ?others, hostStep_read_ksl idle hi, hostStep_read_ksh idle hi⟩
  case lowLane => simp [lane_setLaneHalf _ _ _ _ hi]
  case highLane => simp [lane_setLaneHalf _ _ _ _ hi]
  case others => simp [lane_setLaneHalf _ _ _ _ hj, hne]

theorem hostStep_write_control (idle : s.busy = false) (v : Word) {off : Nat} (hoff : off < 0x100)
    (halign : off % 4 = 0) :
    hostStep (.write (s.cfg.coreBase + off) 4 v) s =
      { writeTarget (controlRegister off) 4 v s with resp := some .ack } := by
  rw [hostStep_write_of_idle idle v (by omega) (accessOk_below_buf (by omega) halign), target_control _ hoff]

theorem hostStep_read_control (idle : s.busy = false) {off : Nat} (hoff : off < 0x100) (halign : off % 4 = 0) :
    hostStep (.read (s.cfg.coreBase + off) 4) s =
      { s with resp := some (.data (readTarget (controlRegister off) 4 s)) } := by
  rw [hostStep_read_of_idle idle (by omega) (accessOk_below_buf (by omega) halign), target_control _ hoff]

/-- R85: a reserved offset ignores what is written and reads 0. -/
theorem hostStep_reserved (idle : s.busy = false) (v : Word) {off size : Nat} (hoff : off < 65536)
    (hok : accessOk off size = true) (htarget : target s.cfg off = .reserved) :
    hostStep (.write (s.cfg.coreBase + off) size v) s = { s with resp := some .ack } ∧
      hostStep (.read (s.cfg.coreBase + off) size) s = { s with resp := some (.data 0) } := by
  rw [hostStep_write_of_idle idle v hoff hok, hostStep_read_of_idle idle hoff hok, htarget]
  exact ⟨rfl, rfl⟩

/-- Settles O58: the control registers by their names, and the reserved offsets by `target_reserved`. -/
theorem idleRegisterAccess : Obligations.IdleRegisterAccess := by
  intro s v idle write read w r
  have writing {off : Nat} (hoff : off < 0x100) (halign : off % 4 = 0) := hostStep_write_control idle v hoff halign
  have reading {off : Nat} (hoff : off < 0x100) (halign : off % 4 = 0) := hostStep_read_control idle hoff halign
  refine ⟨writing (by decide) rfl, writing (by decide) rfl, writing (by decide) rfl, writing (by decide) rfl, ?readOnly,
    reading (by decide) rfl, reading (by decide) rfl, reading (by decide) rfl, reading (by decide) rfl,
    reading (by decide) rfl, reading (by decide) rfl, reading (by decide) rfl, reading (by decide) rfl,
    reading (by decide) rfl, reading (by decide) rfl, reading (by decide) rfl, ?gaps, ?aboveBuf⟩
  case readOnly =>
    intro off hoff
    simp only [List.mem_cons, List.not_mem_nil, or_false] at hoff
    rcases hoff with rfl | rfl | rfl | rfl <;> exact writing (by decide) rfl
  case gaps =>
    intro off halign hoff
    exact hostStep_reserved idle v (by omega) (accessOk_below_buf (by omega) halign) (target_reserved _ (by omega))
  case aboveBuf =>
    intro off size hsize halign hlow hhigh
    exact hostStep_reserved idle v hhigh ((accessOk_iff off size).2 (.inr ⟨by omega, hsize, halign⟩))
      (target_reserved _ (by omega))

end Sys2Proof.Machine
end

section
/-! A command that decodes, as the core's step and as the machine's step (R90). -/

namespace Sys2Proof.Machine

variable {s : State} {i : Instr}

theorem coreStep_of_decode (busy : s.busy = true) (hi : decode s.cfg.np s.cur = some i) : coreStep s = exec i s := by
  rw [coreStep, if_pos busy, performCommand, hi]

/-- Settles O7: the step hands over to the core, which runs the decoded command; a placed word is a command in flight
with the core's move next. -/
theorem stepPerformsDecodedCommand : Obligations.StepPerformsDecodedCommand := by
  refine ⟨fun s i busy hi => ⟨fun henv => ?exhausted, fun rest henv => ?scheduled⟩, fun s w i hi => ?placed⟩
  case exhausted => rw [step_of_env_nil henv, coreStep_of_decode busy hi]
  case scheduled => rw [step_of_env_core henv, coreStep_of_decode (s := { s with env := rest }) busy hi]
  case placed => exact (step_of_env_core rfl).trans (coreStep_of_decode (accept_busy _ s) hi)

end Sys2Proof.Machine
end

section
/-! The bounds check of the commands that access BUF (R88): what it lets a command do, and what it refuses. -/

namespace Sys2Proof.Machine

variable {s : State} {a n : Nat} {e : Err} {body : Except Err State}

theorem perform_check_fails {c : Prop} [Decidable c] (hc : c) :
    perform s (if c then .error e else body) = .next (s.fail e) := by rw [if_pos hc, perform_error]

theorem perform_check_passes {c : Prop} [Decidable c] (hc : ¬ c) :
    perform s (if c then .error e else body) = perform s body := by rw [if_neg hc]

theorem not_inBounds_of_lt {c : Config} (h : c.bufBytes < a + n) : (!inBounds c a n) = true := by simp [inBounds, h]

theorem not_not_inBounds_of_le {c : Config} (h : a + n ≤ c.bufBytes) : ¬ (!inBounds c a n) = true := by
  simp [inBounds, h]

/-- R88 with R302: the check comes before the body, so nothing of the body is written. -/
theorem perform_out_of_bounds (h : s.cfg.bufBytes < a + n) :
    perform s (if !inBounds s.cfg a n then .error .bounds else body) = .next (s.fail .bounds) :=
  perform_check_fails (not_inBounds_of_lt h)

theorem perform_in_bounds (h : a + n ≤ s.cfg.bufBytes) :
    perform s (if !inBounds s.cfg a n then .error .bounds else body) = perform s body :=
  perform_check_passes (not_not_inBounds_of_le h)

theorem exec_sabsorb_out_of_bounds (hphase : s.spPhase = phaseAbsorb)
    (h : s.cfg.bufBytes < argAddress s + argLength s) : exec .sabsorb s = .next (s.fail .bounds) :=
  (perform_check_passes (not_not.2 hphase)).trans (perform_out_of_bounds h)

theorem exec_ssqueeze_out_of_bounds (hphase : s.spPhase = phaseSqueeze)
    (h : s.cfg.bufBytes < argAddress s + argLength s) : exec .ssqueeze s = .next (s.fail .bounds) :=
  (perform_check_passes (not_not.2 hphase)).trans (perform_out_of_bounds h)

/-- R172 in phase and in bounds. -/
theorem exec_sabsorb_in_bounds (hphase : s.spPhase = phaseAbsorb) (h : argAddress s + argLength s ≤ s.cfg.bufBytes) :
    exec .sabsorb s = .next (State.complete { s with
      ks := (absorb s.spRate s.spongeRun (s.buf.read (argAddress s) (argLength s))).ks
      spPos := (absorb s.spRate s.spongeRun (s.buf.read (argAddress s) (argLength s))).pos }) :=
  (perform_check_passes (not_not.2 hphase)).trans (perform_in_bounds h)

/-- R174 in phase and in bounds. -/
theorem exec_ssqueeze_in_bounds (hphase : s.spPhase = phaseSqueeze)
    (h : argAddress s + argLength s ≤ s.cfg.bufBytes) :
    exec .ssqueeze s = .next (State.complete { s with
      ks := (squeeze s.spRate (argLength s) s.spongeRun).2.ks
      spPos := (squeeze s.spRate (argLength s) s.spongeRun).2.pos
      buf := s.buf.write (argAddress s) (squeeze s.spRate (argLength s) s.spongeRun).1 }) :=
  (perform_check_passes (not_not.2 hphase)).trans (perform_in_bounds h)

/-- A write of no bytes leaves a canonical buffer: both sides read alike. -/
theorem write_nil {m : Memory} (h : m.wf) (a : Nat) : m.write a [] = m :=
  canonicalBuffersReadingAlikeAreEqual _ _ (write_wf h a []) h fun x => by
    rw [byte_write, List.length_nil, if_neg (by omega)]

theorem exec_sabsorb_no_bytes (hphase : s.spPhase = phaseAbsorb) (hlen : argLength s = 0)
    (h : argAddress s ≤ s.cfg.bufBytes) : exec .sabsorb s = .next s.complete := by
  rw [exec_sabsorb_in_bounds hphase (by omega), hlen]
  rfl

theorem exec_ssqueeze_no_bytes (hphase : s.spPhase = phaseSqueeze) (hlen : argLength s = 0)
    (h : argAddress s ≤ s.cfg.bufBytes) (hwf : s.buf.wf) : exec .ssqueeze s = .next s.complete := by
  rw [exec_ssqueeze_in_bounds hphase (by omega), hlen, squeeze, write_nil hwf]
  rfl

/-- Settles O48: a failed check reports on the state as it was; with no bytes the loops run no turn, and what is written
is the empty sequence. -/
theorem bufferBoundsAreChecked : Obligations.BufferBoundsAreChecked := by
  intro s rg r eta
  exact ⟨exec_sabsorb_out_of_bounds, exec_ssqueeze_out_of_bounds,
    fun hout => ⟨perform_out_of_bounds hout, perform_out_of_bounds hout⟩, perform_out_of_bounds,
    fun hlen haddr hwf => ⟨fun hphase => exec_sabsorb_no_bytes hphase hlen haddr,
      fun hphase => exec_ssqueeze_no_bytes hphase hlen haddr hwf⟩⟩

end Sys2Proof.Machine
end

section
/-! The access rules of the window (R82 to R84): what breaks them. -/

namespace Sys2Proof.Machine

theorem accessOk_eq_false_iff (off size : Nat) :
    accessOk off size = false ↔ (off < 0x8000 ∧ ¬ (size = 4 ∧ off % 4 = 0)) ∨
      (0x8000 ≤ off ∧ ¬ ((size = 1 ∨ size = 2 ∨ size = 4) ∧ off % size = 0)) := by
  rw [← Bool.not_eq_true, accessOk_iff]
  obtain hlow | hhigh := Nat.lt_or_ge off 0x8000
  · simp only [hlow, Nat.not_le.2 hlow, true_and, false_and, or_false]
  · simp only [hhigh, Nat.not_lt.2 hhigh, true_and, false_and, false_or]

/-- Settles O51: the rules that the access breaks are `accessOk`'s. -/
theorem malformedAccessIsBusError : Obligations.MalformedAccessIsBusError := by
  intro s off size v hoff hbroken
  exact hostStep_malformed s off size v hoff ((accessOk_eq_false_iff off size).2 hbroken)

end Sys2Proof.Machine
end

section
/-! BUF through the host window: little-endian bytes (R83, R86), and a place read back after it is written. -/

namespace Sys2Proof.Machine

variable {s : State}

/-- The little-endian value of a number's low bytes, by R11's recursion: the lowest byte, then those of the quotient. -/
theorem leNat_low_bytes (n x : Nat) :
    leNat ((List.range n).map fun k => BitVec.ofNat 8 (x / 2 ^ (8 * k))) = x % 256 ^ n := by
  induction n generalizing x with
  | zero => simp [leNat, Nat.mod_one]
  | succ n ih =>
    have htail : ∀ k, x / 2 ^ (8 * (k + 1)) = x / 256 / 2 ^ (8 * k) := fun k => by
      rw [Nat.div_div_eq_div_mul, Nat.mul_add, Nat.pow_add, Nat.mul_comm]
    rw [List.range_succ_eq_map, List.map_cons, List.map_map, leNat]
    simp only [Function.comp_def, Nat.succ_eq_add_one, htail, ih]
    rw [Nat.pow_succ', Nat.mod_mul]
    simp

theorem leNat_leBytes (n : Nat) (w : Word) : leNat (leBytes n w) = w.toNat % 256 ^ n := leNat_low_bytes n w.toNat

theorem leBytes_getD {n k : Nat} (hk : k < n) (w : Word) :
    (leBytes n w).getD k 0 = BitVec.ofNat 8 (w.toNat / 256 ^ k) := by
  have hpow : (2 : Nat) ^ (8 * k) = 256 ^ k := Nat.pow_mul 2 8 k
  simp [leBytes, List.getD_eq_getElem?_getD, hk, hpow]

/-- R11: MemRead of what MemWrite wrote. -/
theorem read_write_same (m : Memory) (a : Nat) (bs : List Byte) : (m.write a bs).read a bs.length = bs := by
  refine List.ext_getElem (read_length _ _ _) fun k _ hk => ?_
  rw [read_getElem, byte_write, if_pos (by omega), Nat.add_sub_cancel_left, List.getD_eq_getElem _ _ hk]

theorem target_buf (c : Config) {a : Nat} (ha : a < c.bufBytes) : target c (0x8000 + a) = .buf a := by
  unfold target
  rw [if_neg (by omega), if_neg (by omega), if_neg (by omega), if_pos (by omega), Nat.add_sub_cancel_left]

theorem accessOk_buf {a size : Nat} (hsize : size = 1 ∨ size = 2 ∨ size = 4) (halign : a % size = 0) :
    accessOk (0x8000 + a) size = true :=
  (accessOk_iff _ _).2 (.inr ⟨by omega, hsize, by rcases hsize with rfl | rfl | rfl <;> omega⟩)

section
variable {a size : Nat} (idle : s.busy = false) (hsize : size = 1 ∨ size = 2 ∨ size = 4) (halign : a % size = 0)
  (hfit : a + size ≤ s.cfg.bufBytes) (hbuf : s.cfg.bufBytes ≤ 0x8000)
include idle hsize halign hfit hbuf

/-- R83: a write to BUF is `MemWrite` of the low bytes. -/
theorem hostStep_write_buf (v : Word) :
    hostStep (.write (s.cfg.coreBase + (0x8000 + a)) size v) s =
      { s with buf := s.buf.write a (leBytes size v), resp := some .ack } := by
  rw [hostStep_write_of_idle idle v (by omega) (accessOk_buf hsize halign), target_buf _ (by omega)]
  rfl

/-- R83: a read of BUF is `MemRead`, zero-extended. -/
theorem hostStep_read_buf :
    hostStep (.read (s.cfg.coreBase + (0x8000 + a)) size) s =
      { s with resp := some (.data (leWord (s.buf.read a size))) } := by
  rw [hostStep_read_of_idle idle (by omega) (accessOk_buf hsize halign), target_buf _ (by omega), readTarget]

end

/-- R86: the value of the bytes of a word at the place where they were written. -/
theorem leWord_read_write (m : Memory) (a n : Nat) (v : Word) :
    leWord ((m.write a (leBytes n v)).read a n) = BitVec.ofNat 32 (v.toNat % 256 ^ n) := by
  have h := read_write_same m a (leBytes n v)
  rw [leBytes_length] at h
  rw [leWord, h, leNat_leBytes]

/-- Settles O56: the write is `MemWrite` of the low bytes, and the read, from the state it leaves, takes them back. -/
theorem bufWindowReadsAndWrites : Obligations.BufWindowReadsAndWrites := by
  intro s a size v idle hsize halign hfit hbuf t
  have ht : t = { s with buf := s.buf.write a (leBytes size v), resp := some .ack } :=
    hostStep_write_buf idle hsize halign hfit hbuf v
  have hbyte (x : Nat) :
      t.buf.byte x = if a ≤ x ∧ x < a + size then (leBytes size v).getD (x - a) 0 else s.buf.byte x := by
    rw [ht, byte_write, leBytes_length]
  refine ⟨by rw [ht], fun k hk => ?written, fun x hx => ?kept, ?readBack⟩
  case written => rw [hbyte, if_pos (by omega), Nat.add_sub_cancel_left, leBytes_getD hk]
  case kept => rw [hbyte, if_neg (by omega)]
  case readBack =>
    rw [ht, ← leWord_read_write s.buf]
    exact hostStep_read_buf (s := { s with buf := _, resp := _ }) idle hsize halign hfit hbuf

end Sys2Proof.Machine
end

section
/-! The fields of a command word (R110): the word is determined by them, the formula of R120 is read back from them, and
a row's mask (R118) acts on each of them alone. -/

namespace Sys2Proof

theorem field_lt (w : Word) (lo len : Nat) : field w lo len < 2 ^ len := (w.extractLsb' lo len).isLt

theorem rgField_lt (w : Word) : rgField w < 2 := field_lt w 23 1
theorem rdField_lt (w : Word) : rdField w < 16 := field_lt w 16 4
theorem rs1Field_lt (w : Word) : rs1Field w < 16 := field_lt w 12 4
theorem rs2Field_lt (w : Word) : rs2Field w < 16 := field_lt w 8 4
theorem immField_lt (w : Word) : immField w < 256 := field_lt w 0 8

theorem field_and (w m : Word) (lo len : Nat) : field (w &&& m) lo len = field w lo len &&& field m lo len := by
  simp [field, BitVec.extractLsb'_and]

/-- The seven fields of R110 partition the word. -/
theorem toNat_eq_fields (w : Word) :
    w.toNat = opField w * 0x1000000 + rgField w * 0x800000 + rsvField w * 0x100000 + rdField w * 0x10000 +
      rs1Field w * 0x1000 + rs2Field w * 0x100 + immField w := by
  have hw := w.isLt
  simp only [opField, rgField, rsvField, rdField, rs1Field, rs2Field, immField, field_toNat]
  omega

/-- R120: with RSV = 0 the formula puts the fields of a word together again. -/
theorem encodeFields_fields {w : Word} (hrsv : rsvField w = 0) :
    encodeFields (opField w) (rgField w) (rdField w) (rs1Field w) (rs2Field w) (immField w) = w := by
  have hw := toNat_eq_fields w
  rw [hrsv, Nat.zero_mul, Nat.add_zero] at hw
  rw [encodeFields, ← hw, BitVec.ofNat_toNat, BitVec.setWidth_eq]

theorem word_ext_iff {v w : Word} :
    v = w ↔ opField v = opField w ∧ rgField v = rgField w ∧ rsvField v = rsvField w ∧ rdField v = rdField w ∧
      rs1Field v = rs1Field w ∧ rs2Field v = rs2Field w ∧ immField v = immField w := by
  refine ⟨fun h => by simp [h], fun ⟨hop, hrg, hrsv, hrd, hrs1, hrs2, himm⟩ => BitVec.eq_of_toNat_eq ?_⟩
  rw [toNat_eq_fields v, toNat_eq_fields w, hop, hrg, hrsv, hrd, hrs1, hrs2, himm]

/-- R118: a word is of a row exactly when each of its fields is. -/
theorem and_eq_iff_fields {w m p : Word} :
    w &&& m = p ↔ opField w &&& opField m = opField p ∧ rgField w &&& rgField m = rgField p ∧
      rsvField w &&& rsvField m = rsvField p ∧ rdField w &&& rdField m = rdField p ∧
      rs1Field w &&& rs1Field m = rs1Field p ∧ rs2Field w &&& rs2Field m = rs2Field p ∧
      immField w &&& immField m = immField p := by
  simp only [word_ext_iff, opField, rgField, rsvField, rdField, rs1Field, rs2Field, immField, field_and]

section
variable {op rg rd rs1 rs2 imm : Nat} (hop : op < 256) (hrg : rg < 2) (hrd : rd < 16) (hrs1 : rs1 < 16)
  (hrs2 : rs2 < 16) (himm : imm < 256)
include hop hrg hrd hrs1 hrs2 himm

/-- A field of a word built by the formula of R120, whose operands all fit: nothing is cut off. -/
theorem field_encodeFields (lo len : Nat) :
    field (encodeFields op rg rd rs1 rs2 imm) lo len =
      (op * 0x1000000 + rg * 0x800000 + rd * 0x10000 + rs1 * 0x1000 + rs2 * 0x100 + imm) / 2 ^ lo % 2 ^ len := by
  have hfit : op * 0x1000000 + rg * 0x800000 + rd * 0x10000 + rs1 * 0x1000 + rs2 * 0x100 + imm < 2 ^ 32 := by omega
  rw [field_toNat, encodeFields_toNat, Nat.mod_eq_of_lt hfit]

@[simp] theorem opField_encodeFields : opField (encodeFields op rg rd rs1 rs2 imm) = op := by
  rw [opField, field_encodeFields hop hrg hrd hrs1 hrs2 himm]; omega

@[simp] theorem rgField_encodeFields : rgField (encodeFields op rg rd rs1 rs2 imm) = rg := by
  rw [rgField, field_encodeFields hop hrg hrd hrs1 hrs2 himm]; omega

@[simp] theorem rdField_encodeFields : rdField (encodeFields op rg rd rs1 rs2 imm) = rd := by
  rw [rdField, field_encodeFields hop hrg hrd hrs1 hrs2 himm]; omega

@[simp] theorem rs1Field_encodeFields : rs1Field (encodeFields op rg rd rs1 rs2 imm) = rs1 := by
  rw [rs1Field, field_encodeFields hop hrg hrd hrs1 hrs2 himm]; omega

@[simp] theorem rs2Field_encodeFields : rs2Field (encodeFields op rg rd rs1 rs2 imm) = rs2 := by
  rw [rs2Field, field_encodeFields hop hrg hrd hrs1 hrs2 himm]; omega

@[simp] theorem immField_encodeFields : immField (encodeFields op rg rd rs1 rs2 imm) = imm := by
  rw [immField, field_encodeFields hop hrg hrd hrs1 hrs2 himm]; omega

end

@[simp] theorem byte_toNat_lt (b : Byte) : b.toNat < 256 := b.isLt

@[simp] theorem ring_code_le_one (rg : Ring) : rg.code ≤ 1 := Nat.le_of_lt_succ (ring_code_lt rg)

@[simp] theorem regOf_val (r : PReg) : regOf r.val = r := Fin.ofNat_val_eq_self r

@[simp] theorem val_regOf_rdField (w : Word) : (regOf (rdField w)).val = rdField w := Nat.mod_eq_of_lt (rdField_lt w)

@[simp] theorem val_regOf_rs1Field (w : Word) : (regOf (rs1Field w)).val = rs1Field w :=
  Nat.mod_eq_of_lt (rs1Field_lt w)

@[simp] theorem val_regOf_rs2Field (w : Word) : (regOf (rs2Field w)).val = rs2Field w :=
  Nat.mod_eq_of_lt (rs2Field_lt w)

@[simp] theorem rgField_mod_two (w : Word) : rgField w % 2 = rgField w := Nat.mod_eq_of_lt (rgField_lt w)

@[simp] theorem immField_mod_256 (w : Word) : immField w % 256 = immField w := Nat.mod_eq_of_lt (immField_lt w)

theorem ringOf_of_rgField {w : Word} {rg : Ring} (h : rgField w = rg.code) : ringOf w = rg := by
  rw [ringOf, h]
  cases rg <;> rfl

/-- The ring that RG names has RG as its code (R112). -/
@[simp] theorem code_ringOf (w : Word) : (ringOf w).code = rgField w := by
  have hlt := rgField_lt w
  unfold ringOf
  split
  · next h => exact h.symm
  · next h => exact (show rgField w = 1 by omega).symm

/-- R113: RSV is 0 in the word of every command. -/
@[simp] theorem rsvField_encode : ∀ i : Instr, rsvField (encode i) = 0
  | .kperm => Laws.RsvZero.kperm
  | .kzero => Laws.RsvZero.kzero
  | .sinit v => Laws.RsvZero.sinit v
  | .sabsorb => Laws.RsvZero.sabsorb
  | .sfinal ds => Laws.RsvZero.sfinal ds
  | .ssqueeze => Laws.RsvZero.ssqueeze
  | .montr => Laws.RsvZero.montr
  | .fqmul => Laws.RsvZero.fqmul
  | .bred => Laws.RsvZero.bred
  | .dred => Laws.RsvZero.dred
  | .dcsub => Laws.RsvZero.dcsub
  | .pload rg rd => Laws.RsvZero.pload rg rd
  | .pstore rs1 => Laws.RsvZero.pstore rs1
  | .ntt rg rd rs1 => Laws.RsvZero.ntt rg rd rs1
  | .intt rg rd rs1 => Laws.RsvZero.intt rg rd rs1
  | .pmul rg rd rs1 rs2 => Laws.RsvZero.pmul rg rd rs1 rs2
  | .pmac rg rd rs1 rs2 => Laws.RsvZero.pmac rg rd rs1 rs2
  | .cbd rd eta => Laws.RsvZero.cbd rd eta
  | .wipe => Laws.RsvZero.wipe

end Sys2Proof
end

section
/-! Decoding and encoding are inverse to each other (R117 to R120). -/

namespace Sys2Proof

variable {np : Nat} {w : Word} {i j : Instr}

theorem orIllegal_eq_some_iff {ok : Bool} : orIllegal ok i = some j ↔ ok = true ∧ i = j := by
  cases ok <;> simp [orIllegal]

/-- The opcode map takes back the word of every command: the words without operands and SINIT's two are run; the
others are read field by field. -/
theorem decodeOp_encode (i : Instr) : decodeOp (encode i) = some i := by
  cases i with
  | kperm | kzero | sabsorb | ssqueeze | montr | fqmul | bred | dred | dcsub | wipe => decide
  | sinit v => cases v <;> decide
  | cbd rd eta => cases eta <;> simp [encode, decodeOp, decodeCbd, Eta.code]
  | sfinal ds => simp [encode, decodeOp, orIllegal]
  | pstore rs1 => simp [encode, decodeOp, orIllegal]
  | pload rg _ | ntt rg _ _ | intt rg _ _ | pmul rg _ _ _ | pmac rg _ _ _ =>
    simp [encode, decodeOp, orIllegal, ringOf_of_rgField (rg := rg)]

/-- R118: the word of a command decodes to it exactly when the registers it names exist. -/
theorem decode_encode (np : Nat) (i : Instr) : decode np (encode i) = if i.wellFormed np then some i else none := by
  rw [decode, if_pos (rsvField_encode i), decodeOp_encode, Option.filter_some]

/-- Settles O1: the opcode map takes the word back, and check 4 of R117 passes. -/
theorem decodeOfEncodeIsIdentity : Obligations.DecodeOfEncodeIsIdentity := by
  intro np i hi
  rw [decode_encode, if_pos hi]

theorem decode_eq_some_iff :
    decode np w = some i ↔ rsvField w = 0 ∧ decodeOp w = some i ∧ i.wellFormed np = true := by
  unfold decode
  split <;> simp [*, Option.filter_eq_some_iff]

theorem encode_of_decodeSinit (hop : opField w = 0x20) (hrsv : rsvField w = 0) (h : decodeSinit w = some i) :
    encode i = w := by
  have hw := encodeFields_fields hrsv
  unfold decodeSinit at h
  split at h
  · next hzero =>
    simp only [Bool.and_eq_true, beq_iff_eq] at hzero
    split at h
    · next himm => cases h; simpa [encode, Variant.code, hop, hzero, himm] using hw
    · next himm => cases h; simpa [encode, Variant.code, hop, hzero, himm] using hw
    · cases h
  · cases h

theorem encode_of_decodeCbd (hop : opField w = 0x50) (hrsv : rsvField w = 0) (h : decodeCbd w = some i) :
    encode i = w := by
  have hw := encodeFields_fields hrsv
  unfold decodeCbd at h
  split at h
  · next hzero =>
    simp only [Bool.and_eq_true, beq_iff_eq] at hzero
    split at h
    · next himm => cases h; simpa [encode, Eta.code, hop, hzero, himm] using hw
    · next himm => cases h; simpa [encode, Eta.code, hop, hzero, himm] using hw
    · cases h
  · cases h

/-- A command found by the opcode map has the word's own fields: those that its row marks `0` (R117, check 3) are 0,
and the others are its operands. -/
theorem encode_of_decodeOp (hrsv : rsvField w = 0) (h : decodeOp w = some i) : encode i = w := by
  unfold decodeOp at h
  split at h
  case h_3 hop => exact encode_of_decodeSinit hop hrsv h
  case h_18 hop => exact encode_of_decodeCbd hop hrsv h
  case h_20 => cases h
  all_goals
    rename_i hop
    obtain ⟨hzero, rfl⟩ := orIllegal_eq_some_iff.1 h
    simp only [bareWord, Bool.and_eq_true, beq_iff_eq] at hzero
    simpa [encode, hop, hzero] using encodeFields_fields hrsv

theorem encode_of_decode (h : decode np w = some i) : encode i = w := by
  obtain ⟨hrsv, hi, -⟩ := decode_eq_some_iff.1 h
  exact encode_of_decodeOp hrsv hi

/-- Settles O2: the opcode map reads the word's fields back, and `decode` lets a well-formed command through only. -/
theorem encodeOfDecodeIsIdentity : Obligations.EncodeOfDecodeIsIdentity :=
  fun _ _ _ h => ⟨encode_of_decode h, Machine.wellFormed_of_decode h⟩

/-- Settles O4: the decoder run on each word. -/
theorem specWordsDecode : Obligations.SpecWordsDecode := by
  unfold Obligations.SpecWordsDecode
  decide

end Sys2Proof
end

section
/-! The rows of the opcode table in match and mask form (R118): a word is of a row exactly when it is the encoding of a
command of the row's mnemonic. -/

namespace Sys2Proof

variable {np : Nat} {w : Word} {i : Instr} {r : OpRow}

/-- The fields of a word given as a number. -/
theorem fields_ofNat (n : Nat) :
    opField (BitVec.ofNat 32 n) = n / 2 ^ 24 % 2 ^ 8 ∧ rgField (BitVec.ofNat 32 n) = n / 2 ^ 23 % 2 ∧
      rsvField (BitVec.ofNat 32 n) = n / 2 ^ 20 % 2 ^ 3 ∧ rdField (BitVec.ofNat 32 n) = n / 2 ^ 16 % 2 ^ 4 ∧
      rs1Field (BitVec.ofNat 32 n) = n / 2 ^ 12 % 2 ^ 4 ∧ rs2Field (BitVec.ofNat 32 n) = n / 2 ^ 8 % 2 ^ 4 ∧
      immField (BitVec.ofNat 32 n) = n % 2 ^ 8 := by
  simp only [opField, rgField, rsvField, rdField, rs1Field, rs2Field, immField, field_toNat, BitVec.toNat_ofNat]
  omega

theorem field_and_full (w : Word) (lo len : Nat) : field w lo len &&& (2 ^ len - 1) = field w lo len := by
  rw [Nat.and_two_pow_sub_one_eq_mod, Nat.mod_eq_of_lt (field_lt w lo len)]

/-- A mask that covers a field leaves it as it is. -/
theorem fields_and_full (w : Word) :
    opField w &&& 255 = opField w ∧ rgField w &&& 1 = rgField w ∧ rsvField w &&& 7 = rsvField w ∧
      rdField w &&& 15 = rdField w ∧ rs1Field w &&& 15 = rs1Field w ∧ rs2Field w &&& 15 = rs2Field w ∧
      immField w &&& 255 = immField w :=
  ⟨field_and_full w 24 8, field_and_full w 23 1, field_and_full w 20 3, field_and_full w 16 4, field_and_full w 12 4,
    field_and_full w 8 4, field_and_full w 0 8⟩

/-- Every row fixes the opcode and requires RSV = 0 (R113). -/
theorem opField_rsvField_of_row (hr : r ∈ opcodeTable) (h : w &&& r.mask = r.pattern) :
    opField w = opField r.pattern ∧ rsvField w = 0 := by
  have hrows : ∀ r ∈ opcodeTable, opField r.mask = 255 ∧ rsvField r.mask = 7 ∧ rsvField r.pattern = 0 := by
    decide
  obtain ⟨hopMask, hrsvMask, hrsvPattern⟩ := hrows r hr
  obtain ⟨hop, -, hrsv, -⟩ := and_eq_iff_fields.1 h
  rw [hopMask] at hop
  rw [hrsvMask, hrsvPattern] at hrsv
  simp only [fields_and_full] at hop hrsv
  exact ⟨hop, hrsv⟩

/-- The rows of SINIT and CBD leave the lowest bit of IMM8 free. -/
theorem and_254_eq : ∀ n < 256, n &&& 254 = n - n % 2 := by decide +kernel

/-- A command's word is of the command's row: the mask keeps the opcode and clears the operands. -/
theorem encode_exists_row (i : Instr) :
    ∃ r ∈ opcodeTable, r.mnemonic = i.mnemonic ∧ encode i &&& r.mask = r.pattern := by
  cases i with
  | kperm | kzero | sabsorb | ssqueeze | montr | fqmul | bred | dred | dcsub | wipe => decide
  | sinit v => cases v <;> decide
  | cbd rd eta => cases eta <;> revert rd <;> decide
  | sfinal | pload | pstore | ntt | intt | pmul | pmac =>
    simp [opcodeTable, Instr.mnemonic, and_eq_iff_fields, fields_ofNat, encode, encodeFields_rsv]

/-- A word of a row is the encoding of the row's command with the operands that the word's own fields name. -/
theorem exists_encode_of_row (hr : r ∈ opcodeTable) (h : w &&& r.mask = r.pattern) :
    ∃ i : Instr, i.mnemonic = r.mnemonic ∧ encode i = w := by
  have hw := encodeFields_fields (opField_rsvField_of_row hr h).2
  have hf := and_eq_iff_fields.1 h
  simp only [opcodeTable, List.mem_append, List.mem_cons, List.not_mem_nil, or_false, or_assoc] at hr
  rcases hr with rfl | rfl | rfl | rfl | rfl | rfl | rfl | rfl | rfl | rfl | rfl | rfl | rfl | rfl | rfl | rfl | rfl |
    rfl | rfl
  all_goals simp only [BitVec.ofNat_eq_ofNat, fields_ofNat, fields_and_full, Nat.reducePow, Nat.reduceDiv,
    Nat.reduceMod, Nat.and_zero, true_and, and_true] at hf
  · exact ⟨.kperm, rfl, by simpa [encode, hf] using hw⟩
  · exact ⟨.kzero, rfl, by simpa [encode, hf] using hw⟩
  · obtain himm | himm : immField w = 0 ∨ immField w = 1 := by have := and_254_eq _ (immField_lt w); omega
    · exact ⟨.sinit .shake128, rfl, by simpa [encode, Variant.code, hf, himm] using hw⟩
    · exact ⟨.sinit .shake256, rfl, by simpa [encode, Variant.code, hf, himm] using hw⟩
  · exact ⟨.sabsorb, rfl, by simpa [encode, hf] using hw⟩
  · exact ⟨.sfinal (BitVec.ofNat 8 (immField w)), rfl, by simpa [encode, hf] using hw⟩
  · exact ⟨.ssqueeze, rfl, by simpa [encode, hf] using hw⟩
  · exact ⟨.montr, rfl, by simpa [encode, hf] using hw⟩
  · exact ⟨.fqmul, rfl, by simpa [encode, hf] using hw⟩
  · exact ⟨.bred, rfl, by simpa [encode, hf] using hw⟩
  · exact ⟨.dred, rfl, by simpa [encode, hf] using hw⟩
  · exact ⟨.dcsub, rfl, by simpa [encode, hf] using hw⟩
  · exact ⟨.pload (ringOf w) (regOf (rdField w)), rfl, by simpa [encode, hf] using hw⟩
  · exact ⟨.pstore (regOf (rs1Field w)), rfl, by simpa [encode, hf] using hw⟩
  · exact ⟨.ntt (ringOf w) (regOf (rdField w)) (regOf (rs1Field w)), rfl, by simpa [encode, hf] using hw⟩
  · exact ⟨.intt (ringOf w) (regOf (rdField w)) (regOf (rs1Field w)), rfl, by simpa [encode, hf] using hw⟩
  · exact ⟨.pmul (ringOf w) (regOf (rdField w)) (regOf (rs1Field w)) (regOf (rs2Field w)), rfl,
      by simpa [encode, hf] using hw⟩
  · exact ⟨.pmac (ringOf w) (regOf (rdField w)) (regOf (rs1Field w)) (regOf (rs2Field w)), rfl,
      by simpa [encode, hf] using hw⟩
  · obtain himm | himm : immField w = 2 ∨ immField w = 3 := by have := and_254_eq _ (immField_lt w); omega
    · exact ⟨.cbd (regOf (rdField w)) .two, rfl, by simpa [encode, Eta.code, hf, himm] using hw⟩
    · exact ⟨.cbd (regOf (rdField w)) .three, rfl, by simpa [encode, Eta.code, hf, himm] using hw⟩
  · exact ⟨.wipe, rfl, by simpa [encode, hf] using hw⟩

/-- Settles O3: a command's word is of its row; a word of a row is a command's word, and `decode_encode` says what
becomes of it. -/
theorem decodeAgreesWithOpcodeTable : Obligations.DecodeAgreesWithOpcodeTable := by
  refine fun np w => ⟨fun i hi => ?command, fun r hr h => ?row⟩
  case command =>
    rw [← encode_of_decode hi]
    exact encode_exists_row i
  case row =>
    obtain ⟨i, hmnemonic, rfl⟩ := exists_encode_of_row hr h
    exact ⟨i, hmnemonic, rfl, decode_encode np i⟩

theorem opField_of_decode (h : decode np w = some i) : ∃ r ∈ opcodeTable, opField w = opField r.pattern := by
  obtain ⟨r, hr, -, hmatch⟩ := encode_exists_row i
  rw [encode_of_decode h] at hmatch
  exact ⟨r, hr, (opField_rsvField_of_row hr hmatch).1⟩

theorem opField_eq_div (w : Word) : opField w = w.toNat / 16777216 := by
  have hw := w.isLt
  rw [opField, field_toNat]
  omega

end Sys2Proof
end

section
/-! An illegal word in flight (R113, R119): the core's step reports E_ILLEGAL and changes nothing else. -/

namespace Sys2Proof.Machine

variable {s : State} {np : Nat} {w : Word}

theorem coreStep_of_illegal (busy : s.busy = true) (h : decode s.cfg.np s.cur = none) :
    coreStep s = .next { s with busy := false, done := true, cur := 0, err := true, errcode := 1 } := by
  rw [coreStep, if_pos busy, performCommand, h, fail_eq]
  rfl

theorem decode_of_rsvField (h : rsvField w ≠ 0) : decode np w = none := if_neg h

/-- R119: the opcodes of R118 are those of the table's rows. -/
theorem decode_of_opcode_not_mem
    (h : w.toNat / 16777216 ∉ opcodeTable.map fun r => opField r.pattern) : decode np w = none := by
  refine Option.eq_none_iff_forall_ne_some.2 fun i hi => h ?_
  obtain ⟨r, hr, hop⟩ := opField_of_decode hi
  rw [← opField_eq_div, hop]
  exact List.mem_map_of_mem hr

/-- Settles O5: RSV is the first check of the decoder. -/
theorem reservedBitsMakeIllegal : Obligations.ReservedBitsMakeIllegal := by
  intro s busy hrsv
  refine coreStep_of_illegal busy (decode_of_rsvField ?_)
  rwa [rsvField, field_toNat]

/-- Settles O6: a word that decodes has the opcode of a row, and those are the opcodes listed. -/
theorem illegalWordOnlyReports : Obligations.IllegalWordOnlyReports :=
  ⟨fun _ _ h => decode_of_opcode_not_mem h, fun _ busy h => coreStep_of_illegal busy h⟩

end Sys2Proof.Machine
end

section
/-! The steps of a round lane by lane (R140 to R145), with x and y read mod 5. -/

namespace Sys2Proof.Machine

variable {A : KeccakState} {x y ir : Nat}

theorem laneXY_congr {x' y' : Nat} (hx : x % 5 = x' % 5) (hy : y % 5 = y' % 5) : laneXY A x y = laneXY A x' y' := by
  rw [laneXY, laneXY, hx, hy]

@[simp] theorem laneXY_mod_left : laneXY A (x % 5) y = laneXY A x y := laneXY_congr (Nat.mod_mod _ _) rfl

@[simp] theorem laneXY_mod_right : laneXY A x (y % 5) = laneXY A x y := laneXY_congr rfl (Nat.mod_mod _ _)

@[simp] theorem laneXY_mod_add_left (k : Nat) : laneXY A (x % 5 + k) y = laneXY A (x + k) y :=
  laneXY_congr (Nat.mod_add_mod _ _ _) rfl

/-- R141. -/
theorem laneXY_theta (A : KeccakState) (x y : Nat) : laneXY (theta A) x y = laneXY A x y ^^^ thetaD A x := by
  simp [theta, thetaD, thetaC, laneXY_mkLanesXY]

/-- R142. -/
theorem laneXY_rhoStep (A : KeccakState) (x y : Nat) :
    laneXY (rhoStep A) x y = (laneXY A x y).rotateLeft (rho (x % 5) (y % 5)) := by
  simp [rhoStep, laneXY_mkLanesXY]

/-- R143, by the source of the lane at (x, y). -/
theorem laneXY_piStep (A : KeccakState) (x y : Nat) : laneXY (piStep A) x y = laneXY A (x + 3 * y) x := by
  rw [piStep, laneXY_mkLanesXY]
  exact laneXY_congr (by omega) (by omega)

/-- R143, by the destination of the lane at (x, y). -/
theorem laneXY_piStep_destination (A : KeccakState) (x y : Nat) :
    laneXY (piStep A) y (2 * x + 3 * y) = laneXY A x y := by
  rw [laneXY_piStep]
  exact laneXY_congr (by omega) rfl

/-- R144. -/
theorem laneXY_chi (A : KeccakState) (x y : Nat) :
    laneXY (chi A) x y = laneXY A x y ^^^ (~~~ laneXY A (x + 1) y &&& laneXY A (x + 2) y) := by
  simp [chi, laneXY_mkLanesXY]

theorem laneXY_ext {B : KeccakState} (h : ∀ x y, laneXY A x y = laneXY B x y) : A = B :=
  lanes_ext fun i hi => by
    have hindex : i % 5 % 5 + 5 * (i / 5 % 5) = i := by omega
    simpa only [laneXY, hindex] using h (i % 5) (i / 5)

/-- R145: the lane at (0, 0). -/
theorem lane_iota_zero (A : KeccakState) (ir : Nat) : lane (iota A ir) 0 = lane A 0 ^^^ roundConstant ir := by
  simp [iota]

/-- R145: every other lane stays. -/
theorem lane_iota_of_pos {i : Nat} (hi : 0 < i) : lane (iota A ir) i = lane A i := by
  rw [iota, lane_mkLanes, if_neg (by omega : i ≠ 0), ite_eq_left_iff]
  exact fun h => (lane_of_le A i (by omega)).symm

/-- Settles O17: each step by its lane equation, with the indices reduced mod 5; the rounds are the definition. -/
theorem keccakStepsLaneByLane : Obligations.KeccakStepsLaneByLane := by
  refine fun A ir => ⟨fun x hx y hy => ⟨?theta, ?rho, ?piTo, ?piFrom, ?chi⟩, lane_iota_zero A ir,
    fun i hi => lane_iota_of_pos hi, rfl⟩
  case theta => simp only [laneXY_theta, thetaD, thetaC, laneXY_mod_left]
  case rho => rw [laneXY_rhoStep, Nat.mod_eq_of_lt hx, Nat.mod_eq_of_lt hy]
  case piTo => rw [laneXY_mod_right, laneXY_piStep_destination]
  case piFrom => rw [laneXY_mod_left, laneXY_piStep]
  case chi => rw [laneXY_mod_left, laneXY_mod_left, laneXY_chi]

end Sys2Proof.Machine
end

section
/-! Rotations of a lane: linear over XOR, and a rotation by a multiple of 64 is none. -/

namespace Sys2Proof.Machine

variable {n : Nat}

theorem xor_cancel_left_lane (a b : Lane) : a ^^^ (a ^^^ b) = b := by
  rw [← BitVec.xor_assoc, BitVec.xor_self, BitVec.zero_xor]

theorem xor_eq_xor_of_xor_eq_xor {a b c d : Lane} (h : a ^^^ c = b ^^^ d) : a ^^^ b = c ^^^ d := by
  rw [← BitVec.xor_eq_zero_iff] at h ⊢
  rw [← h]
  ac_rfl

/-- Bit i of a rotated lane is bit i - n of the lane, mod 64. -/
theorem getLsbD_rotateLeft_lane (a : Lane) {i : Nat} (hi : i < 64) :
    (a.rotateLeft n).getLsbD i = a.getLsbD ((i + (64 - n % 64)) % 64) := by
  rw [BitVec.getLsbD_rotateLeft]
  by_cases h : i < n % 64
  · rw [decide_eq_true h, cond_true, show (i + (64 - n % 64)) % 64 = 64 - n % 64 + i by omega]
  · rw [decide_eq_false h, cond_false, decide_eq_true hi, Bool.true_and,
      show (i + (64 - n % 64)) % 64 = i - n % 64 by omega]

theorem rotateLeft_xor_lane (a b : Lane) : (a ^^^ b).rotateLeft n = a.rotateLeft n ^^^ b.rotateLeft n :=
  BitVec.eq_of_getLsbD_eq fun i hi => by
    simp only [BitVec.getLsbD_xor, getLsbD_rotateLeft_lane _ hi]

theorem rotateLeft_rotateLeft_lane (a : Lane) (m n : Nat) : (a.rotateLeft m).rotateLeft n = a.rotateLeft (m + n) :=
  BitVec.eq_of_getLsbD_eq fun i hi => by
    rw [getLsbD_rotateLeft_lane _ hi, getLsbD_rotateLeft_lane _ (Nat.mod_lt _ (by decide)),
      getLsbD_rotateLeft_lane _ hi]
    congr 1
    omega

theorem rotateLeft_lane_of_mod_eq_zero (a : Lane) (hn : n % 64 = 0) : a.rotateLeft n = a :=
  BitVec.eq_of_getLsbD_eq fun i hi => by
    rw [getLsbD_rotateLeft_lane _ hi, hn, Nat.sub_zero, Nat.add_mod_right, Nat.mod_eq_of_lt hi]

/-- Rotating on by what is missing to 64 gives the lane back. -/
theorem rotateLeft_lane_injective (n : Nat) : Function.Injective fun a : Lane => a.rotateLeft n := by
  have hinv : Function.LeftInverse (fun a : Lane => a.rotateLeft (64 - n % 64)) fun a : Lane => a.rotateLeft n :=
    fun a => (rotateLeft_rotateLeft_lane a _ _).trans (rotateLeft_lane_of_mod_eq_zero a (by omega))
  exact hinv.injective

end Sys2Proof.Machine
end

section
/-! θ is injective. Two states with one image have column parities whose difference c, of period 5, satisfies
c(x + 1) = c(x) ^ rotl64(c(x + 2), 1). Over XOR such a recurrence may be squared; at steps of 64 its rotation is gone,
and only c = 0 is left. -/

namespace Sys2Proof.Machine

variable {A B : KeccakState} {c : Nat → Lane} {n : Nat}

/-- The recurrence of the parities' difference, with steps of n. -/
def ParityRecurrence (c : Nat → Lane) (n : Nat) : Prop :=
  ∀ x, c (x + n) = c x ^^^ (c (x + 2 * n)).rotateLeft n

/-- Used at x, x + n and x + 2n, the recurrence gives the one with steps of 2n: the cross terms cancel. -/
theorem ParityRecurrence.double (h : ParityRecurrence c n) : ParityRecurrence c (2 * n) := fun x => by
  have hmid := h (x + n)
  have hfar := h (x + 2 * n)
  rw [show x + n + n = x + 2 * n by omega, show x + n + 2 * n = x + 2 * n + n by omega] at hmid
  rw [show x + 2 * n + 2 * n = x + 2 * (2 * n) by omega] at hfar
  calc c (x + 2 * n)
      = c (x + n) ^^^ (c (x + 2 * n + n)).rotateLeft n := hmid
    _ = c x ^^^ (c (x + 2 * n)).rotateLeft n ^^^
          ((c (x + 2 * n)).rotateLeft n ^^^ (c (x + 2 * (2 * n))).rotateLeft (2 * n)) := by
        rw [h x, hfar, rotateLeft_xor_lane, rotateLeft_rotateLeft_lane, ← two_mul]
    _ = c x ^^^ (c (x + 2 * (2 * n))).rotateLeft (2 * n) := by
        rw [BitVec.xor_assoc, xor_cancel_left_lane]

theorem ParityRecurrence.two_pow (h : ParityRecurrence c 1) (k : Nat) : ParityRecurrence c (2 ^ k) := by
  induction k with
  | zero => exact h
  | succ k ih => simpa only [pow_succ'] using ih.double

theorem ParityRecurrence.without_rotation (h : ParityRecurrence c n) (hn : n % 64 = 0) (x : Nat) :
    c (x + n) = c x ^^^ c (x + 2 * n) := by
  rw [h x, rotateLeft_lane_of_mod_eq_zero _ hn]

/-- Steps of 64 and of 128 without a rotation are, mod 5, steps of 4 and of 3. -/
theorem ParityRecurrence.eq_zero (h : ParityRecurrence c 1) (hperiod : Function.Periodic c 5) (x : Nat) : c x = 0 := by
  have hfour : ∀ x, c (x + 4) = c x ^^^ c (x + 3) := fun x => by
    calc c (x + 4) = c (x + 64) := (hperiod.nat_mul 12 (x + 4)).symm
      _ = c x ^^^ c (x + 128) := (h.two_pow 6).without_rotation rfl x
      _ = c x ^^^ c (x + 3) := congrArg (c x ^^^ ·) (hperiod.nat_mul 25 (x + 3))
  have hthree : ∀ x, c (x + 3) = c x ^^^ c (x + 1) := fun x => by
    calc c (x + 3) = c (x + 128) := (hperiod.nat_mul 25 (x + 3)).symm
      _ = c x ^^^ c (x + 256) := (h.two_pow 7).without_rotation rfl x
      _ = c x ^^^ c (x + 1) := congrArg (c x ^^^ ·) (hperiod.nat_mul 51 (x + 1))
  have hshift : c (x + 3 + 4) = c (x + 3 + 1) := by rw [hfour (x + 3), hthree (x + 3), xor_cancel_left_lane]
  calc c x = c (x + 5) := (hperiod x).symm
    _ = c (x + 4) ^^^ (c (x + 4) ^^^ c (x + 5)) := (xor_cancel_left_lane _ _).symm
    _ = c (x + 4) ^^^ c (x + 4) := by rw [← hthree (x + 4), hshift]
    _ = 0 := BitVec.xor_self

/-- R141: five copies of `D[x]` XORed onto a column leave one, for five is odd. -/
theorem thetaC_theta (A : KeccakState) (x : Nat) : thetaC (theta A) x = thetaC A x ^^^ thetaD A x := by
  have hpairs (a b c d e f : Lane) :
      (a ^^^ f) ^^^ (b ^^^ f) ^^^ (c ^^^ f) ^^^ (d ^^^ f) ^^^ (e ^^^ f) =
        (f ^^^ f) ^^^ (f ^^^ f) ^^^ (a ^^^ b ^^^ c ^^^ d ^^^ e ^^^ f) := by ac_rfl
  simp only [thetaC, laneXY_theta, hpairs, BitVec.xor_self, BitVec.zero_xor]

theorem thetaC_periodic (A : KeccakState) : Function.Periodic (thetaC A) 5 := fun x => by
  simp only [thetaC, laneXY_congr (Nat.add_mod_right x 5) rfl]

/-- Where the column parities of two states differ. -/
def parityDifference (A B : KeccakState) (x : Nat) : Lane := thetaC A x ^^^ thetaC B x

theorem parityDifference_periodic (A B : KeccakState) : Function.Periodic (parityDifference A B) 5 := fun x => by
  rw [parityDifference, thetaC_periodic A, thetaC_periodic B, parityDifference]

theorem parityDifference_recurrence (h : theta A = theta B) : ParityRecurrence (parityDifference A B) 1 := fun x => by
  have hx : thetaC A (x + 1) ^^^ thetaD A (x + 1) = thetaC B (x + 1) ^^^ thetaD B (x + 1) := by
    rw [← thetaC_theta, ← thetaC_theta, h]
  rw [thetaD, thetaD, thetaC_periodic A, thetaC_periodic B] at hx
  simp only [parityDifference, xor_eq_xor_of_xor_eq_xor hx, rotateLeft_xor_lane]
  ac_rfl

theorem thetaC_eq_of_theta_eq (h : theta A = theta B) (x : Nat) : thetaC A x = thetaC B x :=
  BitVec.xor_eq_zero_iff.1 ((parityDifference_recurrence h).eq_zero (parityDifference_periodic A B) x)

theorem theta_injective : Function.Injective theta := fun A B h => laneXY_ext fun x y => by
  have hD : thetaD A x = thetaD B x := by simp only [thetaD, thetaC_eq_of_theta_eq h]
  have hxy : laneXY A x y ^^^ thetaD A x = laneXY B x y ^^^ thetaD B x := by rw [← laneXY_theta, ← laneXY_theta, h]
  rwa [hD, BitVec.xor_left_inj] at hxy

end Sys2Proof.Machine
end

section
/-! KeccakF is a bijection (R148): every step of a round is injective, and there are finitely many states. -/

namespace Sys2Proof.Machine

theorem rhoStep_injective : Function.Injective rhoStep := fun A B h => laneXY_ext fun x y =>
  rotateLeft_lane_injective (rho (x % 5) (y % 5)) <| by
    simpa only [laneXY_rhoStep] using congrArg (laneXY · x y) h

theorem piStep_injective : Function.Injective piStep := fun A B h => laneXY_ext fun x y => by
  rw [← laneXY_piStep_destination A, ← laneXY_piStep_destination B, h]

/-- The inverse of R144 on one row: a bit of χ's argument from the bits of its result along the row. -/
theorem chi_bit_inverse : ∀ a b c d e : Bool,
    ((a ^^ (!b && c)) ^^ (!(b ^^ (!c && d)) && ((c ^^ (!d && e)) ^^ (!(d ^^ (!e && a)) && (e ^^ (!a && b)))))) = a := by
  decide

theorem laneXY_of_chi (A : KeccakState) (x y : Nat) :
    laneXY (chi A) x y ^^^ (~~~ laneXY (chi A) (x + 1) y &&&
      (laneXY (chi A) (x + 2) y ^^^ (~~~ laneXY (chi A) (x + 3) y &&& laneXY (chi A) (x + 4) y))) = laneXY A x y := by
  have hfive : laneXY A (x + 5) y = laneXY A x y := laneXY_congr (by omega) rfl
  have hsix : laneXY A (x + 6) y = laneXY A (x + 1) y := laneXY_congr (by omega) rfl
  refine BitVec.eq_of_getLsbD_eq fun i hi => ?_
  simp only [laneXY_chi, Nat.add_assoc, Nat.reduceAdd, hfive, hsix, BitVec.getLsbD_xor, BitVec.getLsbD_and,
    BitVec.getLsbD_not, hi, decide_true, Bool.true_and]
  exact chi_bit_inverse _ _ _ _ _

theorem chi_injective : Function.Injective chi := fun A B h => laneXY_ext fun x y => by
  rw [← laneXY_of_chi A, h, laneXY_of_chi B]

theorem iota_injective (ir : Nat) : Function.Injective fun A => iota A ir := fun A B h => lanes_ext fun i _ => by
  have hi : lane (iota A ir) i = lane (iota B ir) i := congrArg (lane · i) h
  rcases Nat.eq_zero_or_pos i with rfl | hpos
  · rwa [lane_iota_zero, lane_iota_zero, BitVec.xor_left_inj] at hi
  · rwa [lane_iota_of_pos hpos, lane_iota_of_pos hpos] at hi

theorem keccakRound_injective (ir : Nat) : Function.Injective fun A => keccakRound A ir :=
  (iota_injective ir).comp <| chi_injective.comp <| piStep_injective.comp <| rhoStep_injective.comp theta_injective

theorem foldl_keccakRound_injective (rounds : List Nat) :
    Function.Injective fun A => rounds.foldl keccakRound A := by
  induction rounds with
  | nil => exact Function.injective_id
  | cons ir rounds ih => exact ih.comp (keccakRound_injective ir)

theorem finite_keccakState : Finite KeccakState :=
  Finite.of_injective (fun A (i : Fin 25) => lane A i) fun _ _ h => lanes_ext fun i hi => congrFun h ⟨i, hi⟩

/-- Settles O19: on a finite type an injective function is a bijection. -/
theorem keccakIsBijective : Obligations.KeccakIsBijective :=
  haveI := finite_keccakState
  (foldl_keccakRound_injective (List.range 24)).bijective_of_finite

end Sys2Proof.Machine
end

section
/-! The permutation's commands and tables (R146 to R149). -/

namespace Sys2Proof.Machine

open Reference

/-- Settles O16: neither command raises an error, so each completes with its results. -/
theorem permutationCommandsComplete : Obligations.PermutationCommandsComplete :=
  fun s => ⟨perform_ok s _, perform_ok s _⟩

theorem rho_of_mem_rhoWalk : ∀ e ∈ rhoWalk 24 0 1 0, rho e.1 e.2.1 = e.2.2 := by decide

theorem rhoWalk_positions_nodup : ((rhoWalk 24 0 1 0).map fun e => (e.1, e.2.1)).Nodup := by decide

theorem rhoWalk_positions : ∀ e ∈ rhoWalk 24 0 1 0, e.1 < 5 ∧ e.2.1 < 5 ∧ (e.1, e.2.1) ≠ (0, 0) := by decide

theorem rcDerived_eq_true_iff (ir z : Nat) :
    rcDerived ir z = true ↔ ∃ j < 7, z = 2 ^ j - 1 ∧ rcBit (j + 7 * ir) = true := by
  simp [rcDerived]

theorem roundConstant_bit : ∀ ir < 24, ∀ j < 7, (roundConstant ir).getLsbD (2 ^ j - 1) = rcBit (j + 7 * ir) := by
  decide

theorem roundConstant_set_bits :
    ∀ ir < 24, ∀ z < 64, (roundConstant ir).getLsbD z = true → ∃ j < 7, z = 2 ^ j - 1 := by
  decide

theorem roundConstant_eq_rcDerived {ir z : Nat} (hir : ir < 24) (hz : z < 64) :
    (roundConstant ir).getLsbD z = rcDerived ir z := by
  rw [Bool.eq_iff_iff, rcDerived_eq_true_iff]
  constructor
  · intro h
    obtain ⟨j, hj, rfl⟩ := roundConstant_set_bits ir hir z hz h
    exact ⟨j, hj, rfl, roundConstant_bit ir hir j hj ▸ h⟩
  · rintro ⟨j, hj, rfl, h⟩
    rwa [roundConstant_bit ir hir j hj]

/-- Settles O18: the walk's offsets and positions are RHO's; a round constant has the LFSR's bits at 2^j - 1 and no
other. -/
theorem tablesMatchTheirDerivations : Obligations.TablesMatchTheirDerivations :=
  ⟨rfl, rho_of_mem_rhoWalk, rhoWalk_positions_nodup, rhoWalk_positions,
    fun _ hir _ hz => roundConstant_eq_rcDerived hir hz⟩

end Sys2Proof.Machine
end

section
/-! The bytes of the Keccak state (R32): a state is determined by its 200 bytes, and XORing a byte in changes that byte
alone. -/

namespace Sys2Proof.Machine

variable {A B : KeccakState} {j k : Nat}

/-- R32: bit k of byte j is a bit of lane j div 8. -/
theorem stateByte_getLsbD (A : KeccakState) (j : Nat) (hk : k < 8) :
    (stateByte A j).getLsbD k = (lane A (j / 8)).getLsbD (8 * (j % 8) + k) := by
  rw [stateByte, BitVec.getLsbD_ofNat, Nat.testBit_div_two_pow, decide_eq_true hk, Bool.true_and, BitVec.getLsbD,
    Nat.add_comm]

theorem lane_getLsbD (A : KeccakState) (i : Nat) {z : Nat} (hz : z < 64) :
    (lane A i).getLsbD z = (stateByte A (8 * i + z / 8)).getLsbD (z % 8) := by
  rw [stateByte_getLsbD _ _ (Nat.mod_lt _ (by decide)), show (8 * i + z / 8) / 8 = i by omega,
    show 8 * ((8 * i + z / 8) % 8) + z % 8 = z by omega]

theorem keccakState_ext_bytes (h : ∀ j < 200, stateByte A j = stateByte B j) : A = B :=
  lanes_ext fun i hi => BitVec.eq_of_getLsbD_eq fun z hz => by
    rw [lane_getLsbD A i hz, lane_getLsbD B i hz, h _ (by omega)]

/-- R11: XorStateByte byte by byte. -/
theorem stateByte_xorStateByte (A : KeccakState) (i : Nat) (b : Byte) (hj : j < 200) :
    stateByte (xorStateByte A i b) j = stateByte A j ^^^ if j = i then b else 0 := by
  refine BitVec.eq_of_getLsbD_eq fun k hk => ?_
  rw [BitVec.getLsbD_xor, stateByte_getLsbD _ _ hk, stateByte_getLsbD _ _ hk, xorStateByte, lane_mkLanes,
    if_pos (by omega)]
  by_cases hlane : j / 8 = i / 8
  · have hz : 8 * (j % 8) + k < 64 := by omega
    rw [if_pos hlane, BitVec.getLsbD_xor, BitVec.getLsbD_shiftLeft, BitVec.getLsbD_setWidth]
    congr 1
    by_cases hij : j = i
    · subst hij
      simp [hz, show k < 64 by omega]
    · by_cases hlt : j < i
      · simp [hij, show 8 * (j % 8) + k < 8 * (i % 8) by omega]
      · rw [if_neg hij, BitVec.getLsbD_of_ge b _ (by omega)]
        simp
  · rw [if_neg hlane, if_neg (by rintro rfl; exact hlane rfl)]
    simp

end Sys2Proof.Machine
end

section
/-! The turns of the sponge's loops (R172, R174) as equations, and the loops over a split input. -/

namespace Sys2Proof.Machine

variable {rate : BitVec 8} {r : SpongeRun}

theorem refill_of_used_up (h : r.pos = rate) : r.refill rate = r.permute := if_pos h

theorem refill_of_ne (h : r.pos ≠ rate) : r.refill rate = r := if_neg h

/-- R172: the check after a byte of SABSORB is the one before a byte of SSQUEEZE. -/
theorem absorbByte_eq_refill (rate : BitVec 8) (r : SpongeRun) (b : Byte) :
    absorbByte rate r b = SpongeRun.refill rate ⟨xorStateByte r.ks r.pos.toNat b, r.pos + 1, r.perms⟩ := rfl

theorem absorb_cons (rate : BitVec 8) (r : SpongeRun) (b : Byte) (bs : List Byte) :
    absorb rate r (b :: bs) = absorb rate (absorbByte rate r b) bs := rfl

theorem absorb_append (rate : BitVec 8) (r : SpongeRun) (bs cs : List Byte) :
    absorb rate r (bs ++ cs) = absorb rate (absorb rate r bs) cs := List.foldl_append

/-- What one turn of SSQUEEZE's loop leaves (R174). -/
def SpongeRun.advance (rate : BitVec 8) (r : SpongeRun) : SpongeRun :=
  { r.refill rate with pos := (r.refill rate).pos + 1 }

theorem squeeze_zero (rate : BitVec 8) (r : SpongeRun) : squeeze rate 0 r = ([], r) := rfl

theorem squeeze_succ (rate : BitVec 8) (n : Nat) (r : SpongeRun) :
    squeeze rate (n + 1) r =
      (stateByte (r.refill rate).ks (r.refill rate).pos.toNat :: (squeeze rate n (r.advance rate)).1,
        (squeeze rate n (r.advance rate)).2) := rfl

/-- R175: a squeeze of n + m bytes is one of n bytes and one of m bytes that goes on from it. -/
theorem squeeze_add (rate : BitVec 8) (n m : Nat) (r : SpongeRun) :
    squeeze rate (n + m) r =
      ((squeeze rate n r).1 ++ (squeeze rate m (squeeze rate n r).2).1, (squeeze rate m (squeeze rate n r).2).2) := by
  induction n generalizing r with
  | zero => rw [Nat.zero_add, squeeze_zero, List.nil_append]
  | succ n ih => rw [Nat.add_right_comm, squeeze_succ, squeeze_succ, ih, List.cons_append]

end Sys2Proof.Machine
end

section
/-! The count of permutations is carried along by the sponge's loops and steers nothing (R177): SABSORB and SSQUEEZE
commute with raising it. -/

namespace Sys2Proof.Machine

variable {rate : BitVec 8}

/-- The run that has permuted `c` times more. -/
def SpongeRun.addPerms (c : Nat) (r : SpongeRun) : SpongeRun := { r with perms := r.perms + c }

@[simp] theorem SpongeRun.addPerms_ks (c : Nat) (r : SpongeRun) : (r.addPerms c).ks = r.ks := rfl
@[simp] theorem SpongeRun.addPerms_pos (c : Nat) (r : SpongeRun) : (r.addPerms c).pos = r.pos := rfl

/-- A run is one that starts counting anew, with its own count added. -/
theorem SpongeRun.addPerms_restart (r : SpongeRun) : SpongeRun.addPerms r.perms ⟨r.ks, r.pos, 0⟩ = r := by
  simp [SpongeRun.addPerms]

theorem refill_addPerms (c : Nat) (r : SpongeRun) : (r.addPerms c).refill rate = (r.refill rate).addPerms c := by
  by_cases h : r.pos = rate
  · rw [refill_of_used_up h, refill_of_used_up (r := r.addPerms c) h]
    simp [SpongeRun.permute, SpongeRun.addPerms, Nat.add_right_comm]
  · rw [refill_of_ne h, refill_of_ne (r := r.addPerms c) h]

theorem absorb_addPerms (c : Nat) (r : SpongeRun) (bs : List Byte) :
    absorb rate (r.addPerms c) bs = (absorb rate r bs).addPerms c := by
  induction bs generalizing r with
  | nil => rfl
  | cons b bs ih =>
    have hbyte : absorbByte rate (r.addPerms c) b = (absorbByte rate r b).addPerms c :=
      refill_addPerms c ⟨xorStateByte r.ks r.pos.toNat b, r.pos + 1, r.perms⟩
    rw [absorb_cons, absorb_cons, hbyte, ih]

theorem squeeze_addPerms (c n : Nat) (r : SpongeRun) :
    squeeze rate n (r.addPerms c) = ((squeeze rate n r).1, (squeeze rate n r).2.addPerms c) := by
  induction n generalizing r with
  | zero => rfl
  | succ n ih =>
    have hturn : (r.addPerms c).advance rate = (r.advance rate).addPerms c := by
      rw [SpongeRun.advance, refill_addPerms]
      rfl
    rw [squeeze_succ, squeeze_succ, hturn, ih, refill_addPerms, SpongeRun.addPerms_ks, SpongeRun.addPerms_pos]

end Sys2Proof.Machine
end

section
/-! The position and the count in closed form (R172, R174, R177). -/

namespace Sys2Proof.Machine

variable {rate : BitVec 8} {r : SpongeRun} {n : Nat}

/-- The whole blocks of `a` and those begun by its remainder and `b`. -/
theorem mod_add_div_add_div {q : Nat} (hq : 0 < q) (a b : Nat) : (a % q + b) / q + a / q = (a + b) / q := by
  rw [← Nat.add_mul_div_left _ _ hq, Nat.add_right_comm, Nat.mod_add_div]

/-- R172: where a byte leaves the position, and whether it completes a block. -/
theorem absorbByte_pos_perms (b : Byte) (h : r.pos < rate) :
    (absorbByte rate r b).pos.toNat = (r.pos.toNat + 1) % rate.toNat ∧
      (absorbByte rate r b).perms = r.perms + (r.pos.toNat + 1) / rate.toNat := by
  have hlt : r.pos.toNat < rate.toNat := h
  have hpos : (r.pos + 1).toNat = r.pos.toNat + 1 := by bv_omega
  rw [absorbByte_eq_refill]
  by_cases hfull : r.pos + 1 = rate
  · rw [refill_of_used_up hfull, ← hpos, hfull, Nat.mod_self, Nat.div_self (by omega)]
    exact ⟨rfl, rfl⟩
  · have hroom : r.pos.toNat + 1 < rate.toNat := by bv_omega
    rw [refill_of_ne hfull, Nat.mod_eq_of_lt hroom, Nat.div_eq_of_lt hroom]
    exact ⟨hpos, rfl⟩

/-- Settles O22, by induction on the bytes. -/
theorem absorbPositionAndCount : Obligations.AbsorbPositionAndCount := by
  intro rate r bs h
  have hlt : r.pos.toNat < rate.toNat := h
  induction bs generalizing r with
  | nil => exact ⟨(Nat.mod_eq_of_lt hlt).symm, by simp [absorb, Nat.div_eq_of_lt hlt]⟩
  | cons b bs ih =>
    have hkeep := absorbByte_pos_lt r b h
    obtain ⟨hpos, hperms⟩ := absorbByte_pos_perms b h
    obtain ⟨ihpos, ihperms⟩ := ih _ hkeep hkeep
    rw [absorb_cons, ihpos, ihperms, hpos, hperms, List.length_cons, Nat.mod_add_mod, Nat.add_assoc r.perms,
      Nat.add_comm (_ / _), mod_add_div_add_div (by omega), Nat.add_assoc, Nat.add_comm 1]
    exact ⟨rfl, rfl⟩

section
variable (hrate : 0 < rate.toNat) (hmax : rate.toNat < 255) (hpos : r.pos ≤ rate)
include hrate hpos

/-- R174: the position is the rate or below it, so there is one permutation or none. -/
theorem refill_eq :
    (r.refill rate).ks = keccakF^[r.pos.toNat / rate.toNat] r.ks ∧
      (r.refill rate).pos.toNat = r.pos.toNat % rate.toNat ∧
      (r.refill rate).perms = r.perms + r.pos.toNat / rate.toNat := by
  by_cases h : r.pos = rate
  · rw [refill_of_used_up h, h, Nat.mod_self, Nat.div_self hrate]
    exact ⟨rfl, rfl, rfl⟩
  · have hlt : r.pos.toNat < rate.toNat := by bv_omega
    rw [refill_of_ne h, Nat.mod_eq_of_lt hlt, Nat.div_eq_of_lt hlt]
    exact ⟨rfl, rfl, rfl⟩

include hmax

theorem advance_eq :
    (r.advance rate).ks = keccakF^[r.pos.toNat / rate.toNat] r.ks ∧
      (r.advance rate).pos.toNat = r.pos.toNat % rate.toNat + 1 ∧
      (r.advance rate).perms = r.perms + r.pos.toNat / rate.toNat := by
  obtain ⟨hks, hmod, hperms⟩ := refill_eq hrate hpos
  have hlt := Nat.mod_lt r.pos.toNat hrate
  refine ⟨hks, ?_, hperms⟩
  rw [← hmod] at hlt ⊢
  simp only [SpongeRun.advance]
  bv_omega

theorem advance_pos_le : (r.advance rate).pos ≤ rate := by
  obtain ⟨-, hadv, -⟩ := advance_eq hrate hmax hpos
  have hlt := Nat.mod_lt r.pos.toNat hrate
  rw [BitVec.le_def, hadv]
  exact hlt

/-- R174: byte k of a squeeze. -/
theorem squeeze_getD {k : Nat} (hk : k < n) :
    (squeeze rate n r).1.getD k 0 =
      stateByte (keccakF^[(r.pos.toNat + k) / rate.toNat] r.ks) ((r.pos.toNat + k) % rate.toNat) := by
  induction k generalizing n r with
  | zero =>
    obtain ⟨n, rfl⟩ := Nat.exists_eq_add_one.2 hk
    obtain ⟨hks, hmod, -⟩ := refill_eq hrate hpos
    rw [squeeze_succ, List.getD_cons_zero, hks, hmod, Nat.add_zero]
  | succ k ih =>
    obtain ⟨n, rfl⟩ := Nat.exists_eq_add_one.2 (Nat.zero_lt_of_lt hk)
    obtain ⟨hks, hadv, -⟩ := advance_eq hrate hmax hpos
    rw [squeeze_succ, List.getD_cons_succ, ih (advance_pos_le hrate hmax hpos) (by omega), hks, hadv, Nat.add_assoc,
      Nat.mod_add_mod, ← Function.iterate_add_apply, mod_add_div_add_div hrate, Nat.add_comm 1 k]

/-- R174, R35: what a squeeze of n + 1 bytes leaves. -/
theorem squeeze_succ_state (n : Nat) :
    (squeeze rate (n + 1) r).2.ks = keccakF^[(r.pos.toNat + n) / rate.toNat] r.ks ∧
      (squeeze rate (n + 1) r).2.pos.toNat = (r.pos.toNat + n) % rate.toNat + 1 ∧
      (squeeze rate (n + 1) r).2.perms = r.perms + (r.pos.toNat + n) / rate.toNat := by
  induction n generalizing r with
  | zero => exact advance_eq hrate hmax hpos
  | succ n ih =>
    obtain ⟨hks, hadv, hperms⟩ := advance_eq hrate hmax hpos
    obtain ⟨ihks, ihpos, ihperms⟩ := ih (advance_pos_le hrate hmax hpos)
    rw [squeeze_succ, ihks, ihpos, ihperms, hks, hadv, hperms, Nat.add_assoc, Nat.mod_add_mod,
      ← Function.iterate_add_apply, mod_add_div_add_div hrate, Nat.add_assoc r.perms, Nat.add_comm (_ / _),
      mod_add_div_add_div hrate, Nat.add_comm 1 n]
    exact ⟨rfl, rfl, rfl⟩

end

/-- Settles O26, turn by turn of the loop. -/
theorem squeezeStreamClosedForm : Obligations.SqueezeStreamClosedForm := by
  intro rate r n hrate hmax hpos
  refine ⟨squeeze_length rate n r, fun k hk => squeeze_getD hrate hmax hpos hk, ?none, fun hn => ?some⟩
  case none =>
    rintro rfl
    rfl
  case some =>
    obtain ⟨n, rfl⟩ := Nat.exists_eq_add_one.2 hn
    exact squeeze_succ_state hrate hmax hpos n

end Sys2Proof.Machine
end

section
/-! The sponge commands (R171 to R174): what each makes of a state in phase, and two of one kind in a row (R175). -/

namespace Sys2Proof.Machine

variable {s : State} {rate : BitVec 8}

/-- R171: the session that SINIT opens. -/
def State.opened (v : Variant) (s : State) : State :=
  State.complete { s with ks := zeroLanes, spRate := variantRate v, spPos := 0, spPhase := phaseAbsorb }

theorem exec_sinit (v : Variant) (s : State) : exec (.sinit v) s = .next (s.opened v) := rfl

/-- R44: the word of SPONGE at position 0 of phase ABSORB. -/
theorem spongeWord_opened (v : Variant) (s : State) :
    spongeWord (s.opened v) = BitVec.ofNat 32 (0x100 * (variantRate v).toNat + 0x10000) := by
  simp [spongeWord, State.opened, phaseAbsorb]

/-- R173 in phase ABSORB: what SFINAL leaves. -/
def State.finalized (ds : Byte) (s : State) : State :=
  State.complete { s with
    ks := keccakF (padState s.ks s.spPos s.spRate ds), spPos := 0, spPhase := phaseSqueeze }

theorem exec_sfinal_in_phase (ds : Byte) (hphase : s.spPhase = phaseAbsorb) :
    exec (.sfinal ds) s = .next (s.finalized ds) :=
  perform_check_passes (not_not.2 hphase)

/-- Settles O20: SINIT checks nothing, and the word of R44 is evaluated for each variant. -/
theorem sinitOpensSession : Obligations.SinitOpensSession :=
  fun s => ⟨⟨_, exec_sinit .shake128 s, (spongeWord_opened .shake128 s).trans (by decide), rfl⟩,
    ⟨_, exec_sinit .shake256 s, (spongeWord_opened .shake256 s).trans (by decide), rfl⟩⟩

/-- Settles O21: both checks pass, and the completion is R301's. -/
theorem sabsorbAbsorbsBytes : Obligations.SabsorbAbsorbsBytes :=
  fun _ hphase hfit => exec_sabsorb_in_bounds hphase hfit

/-- R173: the two XORs of the padding, byte by byte. -/
theorem stateByte_padState (A : KeccakState) {pos : BitVec 8} (ds : Byte) (hrate : 0 < rate.toNat) {j : Nat}
    (hj : j < 200) :
    stateByte (padState A pos rate ds) j =
      stateByte A j ^^^ (if j = pos.toNat then ds else 0) ^^^ (if j = rate.toNat - 1 then 0x80 else 0) := by
  have hlast : (rate - 1).toNat = rate.toNat - 1 := by bv_omega
  rw [padState, stateByte_xorStateByte _ _ _ hj, stateByte_xorStateByte _ _ _ hj, hlast, padLast]

/-- Settles O24 with the padded state as the witness. -/
theorem sfinalPadsAndPermutes : Obligations.SfinalPadsAndPermutes := by
  intro ds s hphase hpos _
  have hrate : 0 < s.spRate.toNat := Nat.zero_lt_of_lt hpos
  exact ⟨padState s.ks s.spPos s.spRate ds, fun _ hj => stateByte_padState s.ks ds hrate hj,
    exec_sfinal_in_phase ds hphase⟩

/-- Settles O25: `MemWrite` of the loop's bytes, read address by address. -/
theorem ssqueezeWritesStream : Obligations.SsqueezeWritesStream := by
  intro s hphase hfit out
  have hlen : out.1.length = argLength s := squeeze_length _ _ _
  refine ⟨_, exec_ssqueeze_in_bounds hphase hfit, rfl, hlen, fun k hk => ?written, fun x hx => ?kept⟩
  case written => exact (byte_write _ _ out.1 _).trans (by rw [if_pos (by omega), Nat.add_sub_cancel_left])
  case kept => exact (byte_write _ _ out.1 _).trans (if_neg (by omega))

/-- MemRead of adjacent ranges (R11). -/
theorem read_add (m : Memory) (a n k : Nat) : m.read a (n + k) = m.read a n ++ m.read (a + n) k := by
  simp [Memory.read, List.range_add, Function.comp_def, Nat.add_assoc]

/-- MemWrite of adjacent ranges (R11) reads as one MemWrite. -/
theorem byte_write_write_adjacent (m : Memory) (a : Nat) (bs cs : List Byte) (x : Nat) :
    ((m.write a bs).write (a + bs.length) cs).byte x = (m.write a (bs ++ cs)).byte x := by
  rw [byte_write, byte_write, byte_write, List.length_append]
  by_cases hsecond : a + bs.length ≤ x ∧ x < a + bs.length + cs.length
  · rw [if_pos hsecond, if_pos (by omega), List.getD_append_right _ _ _ _ (by omega), Nat.sub_sub]
  · rw [if_neg hsecond]
    by_cases hfirst : a ≤ x ∧ x < a + bs.length
    · rw [if_pos hfirst, if_pos (by omega), List.getD_append _ _ _ _ (by omega)]
    · rw [if_neg hfirst, if_neg (by omega)]

/-- R172 at one operand pair: what a SABSORB of `n` bytes from `a` on leaves. -/
def State.absorbed (s : State) (a n : Word) : State :=
  State.complete { s with
    arg0 := a, arg1 := n
    ks := (absorb s.spRate s.spongeRun (s.buf.read a.toNat n.toNat)).ks
    spPos := (absorb s.spRate s.spongeRun (s.buf.read a.toNat n.toNat)).pos }

theorem exec_sabsorb_args {a n : Word} (hphase : s.spPhase = phaseAbsorb) (hfit : a.toNat + n.toNat ≤ s.cfg.bufBytes) :
    exec .sabsorb { s with arg0 := a, arg1 := n } = .next (s.absorbed a n) :=
  exec_sabsorb_in_bounds (s := { s with arg0 := a, arg1 := n }) hphase hfit

/-- R174 at one operand pair: what an SSQUEEZE of `n` bytes to `a` on leaves. -/
def State.squeezed (s : State) (a n : Word) : State :=
  State.complete { s with
    arg0 := a, arg1 := n
    ks := (squeeze s.spRate n.toNat s.spongeRun).2.ks
    spPos := (squeeze s.spRate n.toNat s.spongeRun).2.pos
    buf := s.buf.write a.toNat (squeeze s.spRate n.toNat s.spongeRun).1 }

theorem exec_ssqueeze_args {a n : Word} (hphase : s.spPhase = phaseSqueeze)
    (hfit : a.toNat + n.toNat ≤ s.cfg.bufBytes) :
    exec .ssqueeze { s with arg0 := a, arg1 := n } = .next (s.squeezed a n) :=
  exec_ssqueeze_in_bounds (s := { s with arg0 := a, arg1 := n }) hphase hfit

/-- The run that the next command starts from is the one that the command before left, counting anew. -/
theorem spongeRun_absorbed (s : State) (a n : Word) :
    (s.absorbed a n).spongeRun.addPerms (absorb s.spRate s.spongeRun (s.buf.read a.toNat n.toNat)).perms =
      absorb s.spRate s.spongeRun (s.buf.read a.toNat n.toNat) :=
  SpongeRun.addPerms_restart _

theorem spongeRun_squeezed (s : State) (a n : Word) :
    (s.squeezed a n).spongeRun.addPerms (squeeze s.spRate n.toNat s.spongeRun).2.perms =
      (squeeze s.spRate n.toNat s.spongeRun).2 :=
  SpongeRun.addPerms_restart _

/-- Lengths that fit the buffer add without carry. -/
theorem toNat_add_of_fits {a b : Word} (h : a.toNat + b.toNat ≤ 16384) : (a + b).toNat = a.toNat + b.toNat := by
  bv_omega

/-- Settles O23: the second SABSORB goes on with the run of the first, but for the count, which steers nothing. -/
theorem sabsorbInPieces : Obligations.SabsorbInPieces := by
  intro s a n m hphase hfit hmax
  have ha : (a + n).toNat = a.toNat + n.toNat := toNat_add_of_fits (by omega)
  have hn : (n + m).toNat = n.toNat + m.toNat := toNat_add_of_fits (by omega)
  have hrun : absorb s.spRate s.spongeRun (s.buf.read a.toNat (n + m).toNat) =
      (absorb s.spRate (s.absorbed a n).spongeRun (s.buf.read (a + n).toNat m.toNat)).addPerms
        (absorb s.spRate s.spongeRun (s.buf.read a.toNat n.toNat)).perms := by
    rw [← absorb_addPerms, spongeRun_absorbed, ha, hn, read_add, absorb_append]
  refine ⟨_, _, _, exec_sabsorb_args hphase (by omega),
    exec_sabsorb_args (s := s.absorbed a n) hphase (?fit : _ ≤ s.cfg.bufBytes),
    exec_sabsorb_args hphase (by omega), ?ks, ?pos⟩
  case fit => omega
  case ks => exact (congrArg SpongeRun.ks hrun).symm
  case pos => exact (congrArg SpongeRun.pos hrun).symm

/-- Settles O27: the second SSQUEEZE goes on with the run of the first, but for the count, which steers nothing, and
writes where the first ended. -/
theorem ssqueezeInPieces : Obligations.SsqueezeInPieces := by
  intro s a n m hphase hfit hmax
  have ha : (a + n).toNat = a.toNat + n.toNat := toNat_add_of_fits (by omega)
  have hn : (n + m).toNat = n.toNat + m.toNat := toNat_add_of_fits (by omega)
  have hrest := squeeze_addPerms (rate := s.spRate) (squeeze s.spRate n.toNat s.spongeRun).2.perms m.toNat
    (s.squeezed a n).spongeRun
  rw [spongeRun_squeezed] at hrest
  have hrun : squeeze s.spRate (n + m).toNat s.spongeRun =
      ((squeeze s.spRate n.toNat s.spongeRun).1 ++ (squeeze s.spRate m.toNat (s.squeezed a n).spongeRun).1,
        (squeeze s.spRate m.toNat (s.squeezed a n).spongeRun).2.addPerms
          (squeeze s.spRate n.toNat s.spongeRun).2.perms) := by
    rw [hn, squeeze_add, hrest]
  refine ⟨_, _, _, exec_ssqueeze_args hphase (by omega),
    exec_ssqueeze_args (s := s.squeezed a n) hphase (?fit : _ ≤ s.cfg.bufBytes),
    exec_ssqueeze_args hphase (by omega), ?ks, ?pos, fun x => ?bytes⟩
  case fit => omega
  case ks => exact (congrArg (SpongeRun.ks ∘ Prod.snd) hrun).symm
  case pos => exact (congrArg (SpongeRun.pos ∘ Prod.snd) hrun).symm
  case bytes =>
    have hbytes := congrArg (fun out => (s.buf.write a.toNat out.1).byte x) hrun
    have hsplit := byte_write_write_adjacent s.buf a.toNat (squeeze s.spRate n.toNat s.spongeRun).1
      (squeeze s.spRate m.toNat (s.squeezed a n).spongeRun).1 x
    rw [squeeze_length, ← ha] at hsplit
    exact hsplit.trans hbytes.symm

end Sys2Proof.Machine
end

section
/-! The permutations of a session (R177): pieces are one sequence, and the count is that of the closed forms. -/

namespace Sys2Proof.Machine

variable {rate : BitVec 8}

theorem foldl_absorb (r : SpongeRun) (pieces : List (List Byte)) :
    pieces.foldl (absorb rate) r = absorb rate r pieces.flatten := List.foldl_flatten.symm

theorem foldl_squeeze (r : SpongeRun) (lengths : List Nat) :
    lengths.foldl (fun run n => (squeeze rate n run).2) r = (squeeze rate lengths.sum r).2 := by
  induction lengths generalizing r with
  | nil => rfl
  | cons n lengths ih => rw [List.foldl_cons, ih, List.sum_cons, squeeze_add]

/-- R174: squeezing n bytes from a fresh block permutes once for each block begun after the first. -/
theorem squeeze_perms_of_pos_zero {r : SpongeRun} (hrate : 0 < rate.toNat) (hmax : rate.toNat < 255) (hpos : r.pos = 0)
    (n : Nat) : (squeeze rate n r).2.perms = r.perms + ((n + rate.toNat - 1) / rate.toNat - 1) := by
  cases n with
  | zero =>
    have hzero : (0 + rate.toNat - 1) / rate.toNat = 0 := Nat.div_eq_of_lt (by omega)
    rw [squeeze_zero, hzero]
    rfl
  | succ n =>
    obtain ⟨-, -, hperms⟩ := squeeze_succ_state hrate hmax (r := r) (by rw [hpos]; exact Nat.zero_le _) n
    have hzero : r.pos.toNat = 0 := congrArg BitVec.toNat hpos
    rw [hperms, hzero, Nat.zero_add, Nat.add_right_comm, Nat.add_sub_cancel,
      Nat.add_div_right _ hrate, Nat.succ_sub_one]

theorem variantRate_range (v : Variant) : 0 < (variantRate v).toNat ∧ (variantRate v).toNat < 200 := by
  cases v <;> decide

/-- Settles O29: SABSORBs in pieces count as one, and so do SSQUEEZEs. -/
theorem sessionPermutationCount : Obligations.SessionPermutationCount := by
  intro v ds pieces lengths rate r absorbed final squeezed
  obtain ⟨hrate, hmax⟩ := variantRate_range v
  have habsorbed : absorbed.perms = (pieces.map List.length).sum / r := by
    have h : (absorb rate ⟨zeroLanes, 0, 0⟩ pieces.flatten).perms = 0 + (0 + pieces.flatten.length) / r :=
      (absorbPositionAndCount rate ⟨zeroLanes, 0, 0⟩ pieces.flatten hrate).2
    rwa [← foldl_absorb, List.length_flatten, Nat.zero_add, Nat.zero_add] at h
  have hsqueezed : squeezed.perms = final.perms + ((lengths.sum + r - 1) / r - 1) := by
    rw [← squeeze_perms_of_pos_zero (r := final) hrate (by omega) rfl, ← foldl_squeeze]
  rw [hsqueezed, ← habsorbed]

end Sys2Proof.Machine
end

section
/-! Whole blocks at once (R172, R175): SABSORB's byte loop is the block-wise absorption of DOC. -/

namespace Sys2Proof.Machine

open Reference

variable {A : KeccakState} {rate : BitVec 8} {j : Nat}

/-- The bytes of a list XORed into the state from byte `p` on, with no permutation. -/
def xorBytes (A : KeccakState) (p : Nat) : List Byte → KeccakState
  | [] => A
  | b :: bs => xorBytes (xorStateByte A p b) (p + 1) bs

theorem stateByte_xorBytes (A : KeccakState) (p : Nat) (bs : List Byte) (hj : j < 200) :
    stateByte (xorBytes A p bs) j = stateByte A j ^^^ if p ≤ j then bs.getD (j - p) 0 else 0 := by
  induction bs generalizing A p with
  | nil => simp [xorBytes]
  | cons b bs ih =>
    rw [xorBytes, ih, stateByte_xorStateByte _ _ _ hj, BitVec.xor_assoc]
    congr 1
    rcases Nat.lt_trichotomy j p with hlt | rfl | hgt
    · rw [if_neg (by omega), if_neg (by omega), if_neg (by omega)]
      rfl
    · rw [if_pos rfl, if_neg (by omega), if_pos (Nat.le_refl j), Nat.sub_self, List.getD_cons_zero]
      exact BitVec.xor_zero
    · rw [if_neg (by omega), if_pos (by omega), if_pos (by omega),
        show j - p = j - (p + 1) + 1 by omega, List.getD_cons_succ]
      exact BitVec.zero_xor

/-- R172: bytes that do not pass the end of the block are XORed in; the permutation comes if they reach it. -/
theorem absorb_within_block (A : KeccakState) {pos : BitVec 8} (c : Nat) (bs : List Byte) (hpos : pos < rate)
    (hfit : pos.toNat + bs.length ≤ rate.toNat) :
    absorb rate ⟨A, pos, c⟩ bs =
      SpongeRun.refill rate ⟨xorBytes A pos.toNat bs, BitVec.ofNat 8 (pos.toNat + bs.length), c⟩ := by
  have hlt : pos.toNat < rate.toNat := hpos
  induction bs generalizing A pos with
  | nil =>
    have hne : pos ≠ rate := by bv_omega
    rw [List.length_nil, Nat.add_zero, BitVec.ofNat_toNat, BitVec.setWidth_eq]
    exact (refill_of_ne hne).symm
  | cons b bs ih =>
    rw [List.length_cons] at hfit
    have hnext : (pos + 1).toNat = pos.toNat + 1 := by bv_omega
    rw [absorb_cons, absorbByte_eq_refill, xorBytes, List.length_cons]
    rcases Nat.eq_zero_or_pos bs.length with hnil | hmore
    · obtain rfl := List.eq_nil_of_length_eq_zero hnil
      rw [List.length_nil, ← hnext, BitVec.ofNat_toNat, BitVec.setWidth_eq]
      rfl
    · have hroom : pos + 1 < rate := by bv_omega
      have hne : pos + 1 ≠ rate := by bv_omega
      rw [refill_of_ne hne, ih _ hroom (by omega) hroom, hnext, Nat.add_assoc, Nat.add_comm 1]

theorem absorb_from_block_start (A : KeccakState) (c : Nat) (bs : List Byte) (hrate : 0 < rate.toNat)
    (hfit : bs.length ≤ rate.toNat) :
    absorb rate ⟨A, 0, c⟩ bs = SpongeRun.refill rate ⟨xorBytes A 0 bs, BitVec.ofNat 8 bs.length, c⟩ := by
  have h := absorb_within_block A (pos := 0) c bs hrate (by simpa using hfit)
  simpa using h

/-- R11: bit k of the byte m of a little-endian value. -/
theorem leNat_testBit (bs : List Byte) (m : Nat) {k : Nat} (hk : k < 8) :
    (leNat bs).testBit (8 * m + k) = (bs.getD m 0).getLsbD k := by
  induction bs generalizing m with
  | nil => simp [leNat]
  | cons b bs ih =>
    rw [leNat, Nat.add_comm, Nat.testBit_two_pow_mul_add (i := 8) _ b.isLt]
    cases m with
    | zero => rw [if_pos (by omega), List.getD_cons_zero, Nat.mul_zero, Nat.zero_add, BitVec.getLsbD]
    | succ m =>
      rw [if_neg (by omega), List.getD_cons_succ, ← ih, show 8 * (m + 1) + k - 8 = 8 * m + k by omega]

theorem stateByte_xorBlock (A : KeccakState) (block : List Byte) (hj : j < 200) :
    stateByte (xorBlock A block) j = stateByte A j ^^^ block.getD j 0 := by
  refine BitVec.eq_of_getLsbD_eq fun k hk => ?_
  have hbyte : ((block.drop (8 * (j / 8))).take 8).getD (j % 8) 0 = block.getD j 0 := by
    have hlt : j % 8 < 8 := Nat.mod_lt _ (by decide)
    simp [List.getD_eq_getElem?_getD, hlt, Nat.div_add_mod]
  rw [BitVec.getLsbD_xor, stateByte_getLsbD _ _ hk, stateByte_getLsbD _ _ hk, xorBlock, lane_mkLanes,
    if_pos (by omega), BitVec.getLsbD_xor, BitVec.getLsbD_ofNat, leNat_testBit _ _ hk, hbyte,
    decide_eq_true (by omega), Bool.true_and]

theorem xorBlock_eq_xorBytes (A : KeccakState) (block : List Byte) : xorBlock A block = xorBytes A 0 block :=
  keccakState_ext_bytes fun j hj => by
    rw [stateByte_xorBlock A block hj, stateByte_xorBytes A 0 block hj, if_pos (Nat.zero_le j), Nat.sub_zero]

/-- Block b of a message at a rate of n bytes. -/
def blockAt (n : Nat) (msg : List Byte) (b : Nat) : List Byte := (msg.drop (b * n)).take n

/-- The state after the first q blocks of a message, each XORed in and permuted. -/
def absorbBlocks (n : Nat) (msg : List Byte) (q : Nat) : KeccakState :=
  (List.range q).foldl (fun A b => keccakF (xorBlock A (blockAt n msg b))) zeroLanes

theorem absorbBlocks_succ (n : Nat) (msg : List Byte) (q : Nat) :
    absorbBlocks n msg (q + 1) = keccakF (xorBlock (absorbBlocks n msg q) (blockAt n msg q)) := by
  simp [absorbBlocks, List.range_succ]

theorem absorbedState_eq (n : Nat) (ds : Byte) (msg : List Byte) :
    absorbedState n ds msg = absorbBlocks n (padMessage n ds msg) (msg.length / n + 1) := rfl

theorem absorb_full_block (A : KeccakState) (c : Nat) {block : List Byte} (hrate : 0 < rate.toNat)
    (hlen : block.length = rate.toNat) :
    absorb rate ⟨A, 0, c⟩ block = ⟨keccakF (xorBlock A block), 0, c + 1⟩ := by
  rw [absorb_from_block_start A c block hrate hlen.le, hlen, BitVec.ofNat_toNat, BitVec.setWidth_eq,
    xorBlock_eq_xorBytes]
  exact refill_of_used_up rfl

theorem absorb_blocks (hrate : 0 < rate.toNat) (msg : List Byte) (q : Nat) (hq : q * rate.toNat ≤ msg.length) :
    absorb rate ⟨zeroLanes, 0, 0⟩ (msg.take (q * rate.toNat)) = ⟨absorbBlocks rate.toNat msg q, 0, q⟩ := by
  induction q with
  | zero => rw [Nat.zero_mul]; rfl
  | succ q ih =>
    rw [Nat.add_one_mul] at hq ⊢
    rw [List.take_add, absorb_append, ih (by omega), absorb_full_block _ _ hrate (by simp; omega), absorbBlocks_succ]
    rfl

end Sys2Proof.Machine
end

section
/-! The padded message byte by byte (R173): only its last block differs from the message's, and that block is the one
that SFINAL's two XORs make. -/

namespace Sys2Proof.Machine

open Reference

variable {A : KeccakState} {rate : BitVec 8}

/-- The bytes of a list after one of them is modified. -/
theorem getD_modify {f : Byte → Byte} {bs : List Byte} {t : Nat} (ht : t < bs.length) (i : Nat) :
    (bs.modify t f).getD i 0 = if t = i then f (bs.getD i 0) else bs.getD i 0 := by
  by_cases hi : i < bs.length
  · rw [List.getD_eq_getElem _ _ hi, List.getD_eq_getElem _ _ (by rwa [List.length_modify]), List.getElem_modify]
  · have hmod : (bs.modify t f).length ≤ i := by rw [List.length_modify]; omega
    rw [List.getD_eq_default _ _ hmod, List.getD_eq_default _ _ (by omega), if_neg (by omega)]

theorem append_separator_getD (ds : Byte) (msg : List Byte) (z i : Nat) :
    (msg ++ ds :: List.replicate z 0).getD i 0 = msg.getD i 0 ^^^ if i = msg.length then ds else 0 := by
  rcases Nat.lt_trichotomy i msg.length with hlt | rfl | hgt
  · rw [List.getD_append _ _ _ _ hlt, if_neg (by omega)]
    exact BitVec.xor_zero.symm
  · rw [List.getD_append_right _ _ _ _ (Nat.le_refl _), Nat.sub_self, List.getD_cons_zero, if_pos rfl,
      List.getD_eq_default _ _ (Nat.le_refl _)]
    exact BitVec.zero_xor.symm
  · rw [List.getD_append_right _ _ _ _ (by omega), show i - msg.length = i - msg.length - 1 + 1 by omega,
      List.getD_cons_succ, if_neg (by omega), List.getD_eq_default msg _ (by omega), List.getD_eq_getElem?_getD,
      List.getElem?_getD_replicate_default_eq]
    rfl

/-- R173, R175: a padded message byte by byte. -/
theorem padMessage_getD {n : Nat} (hn : 0 < n) (ds : Byte) (msg : List Byte) (i : Nat) :
    (padMessage n ds msg).getD i 0 =
      msg.getD i 0 ^^^ (if i = msg.length then ds else 0) ^^^
        (if i = (msg.length / n + 1) * n - 1 then 0x80 else 0) := by
  have hmod := Nat.mod_lt msg.length hn
  have hdiv := Nat.div_add_mod' msg.length n
  have hlen : (msg ++ ds :: List.replicate (n - 1 - msg.length % n) 0).length = (msg.length / n + 1) * n := by
    rw [Nat.add_one_mul]
    simp only [List.length_append, List.length_cons, List.length_replicate]
    omega
  have hlast : (msg.length / n + 1) * n - 1 < (msg.length / n + 1) * n := by
    have := Nat.mul_pos (Nat.add_one_pos (msg.length / n)) hn
    omega
  rw [padMessage, getD_modify (by rwa [hlen]), append_separator_getD]
  by_cases hi : i = (msg.length / n + 1) * n - 1
  · rw [if_pos hi, if_pos hi.symm]
  · rw [if_neg hi, if_neg (Ne.symm hi)]
    exact BitVec.xor_zero.symm

theorem blockAt_getD (n : Nat) (msg : List Byte) (b j : Nat) :
    (blockAt n msg b).getD j 0 = if j < n then msg.getD (b * n + j) 0 else 0 := by
  by_cases hj : j < n <;> simp [blockAt, List.getD_eq_getElem?_getD, hj]

/-- The padding lies in the last block: every block before it is the message's. -/
theorem xorBlock_blockAt_padMessage {n : Nat} (hn : 0 < n) (ds : Byte) (msg : List Byte) {b : Nat}
    (hb : (b + 1) * n ≤ msg.length) :
    xorBlock A (blockAt n (padMessage n ds msg) b) = xorBlock A (blockAt n msg b) :=
  keccakState_ext_bytes fun j hj => by
    have hmod := Nat.mod_lt msg.length hn
    have hdiv := Nat.div_add_mod' msg.length n
    rw [Nat.add_one_mul] at hb
    rw [stateByte_xorBlock _ _ hj, stateByte_xorBlock _ _ hj, blockAt_getD, blockAt_getD]
    by_cases hjn : j < n
    · have hpad : (padMessage n ds msg).getD (b * n + j) 0 = msg.getD (b * n + j) 0 := by
        rw [padMessage_getD hn, if_neg (by omega), Nat.add_one_mul, if_neg (by omega)]
        exact BitVec.xor_zero.trans BitVec.xor_zero
      rw [if_pos hjn, if_pos hjn, hpad]
    · rw [if_neg hjn, if_neg hjn]

theorem absorbBlocks_padMessage {n : Nat} (hn : 0 < n) (ds : Byte) (msg : List Byte) (q : Nat)
    (hq : q * n ≤ msg.length) : absorbBlocks n (padMessage n ds msg) q = absorbBlocks n msg q := by
  induction q with
  | zero => simp [absorbBlocks]
  | succ q ih =>
    have hprev : q * n ≤ msg.length := (Nat.mul_le_mul_right n (Nat.le_succ q)).trans hq
    rw [absorbBlocks_succ, absorbBlocks_succ, ih hprev, xorBlock_blockAt_padMessage hn ds msg hq]

/-- R173: the rest of the message, the separator right after it and 0x80 at the end are the last padded block. -/
theorem padState_eq_xorBlock (A : KeccakState) (hrate : 0 < rate.toNat) (ds : Byte) (msg : List Byte) {pos : BitVec 8}
    (hpos : pos.toNat = msg.length % rate.toNat) :
    padState (xorBytes A 0 (msg.drop (msg.length / rate.toNat * rate.toNat))) pos rate ds =
      xorBlock A (blockAt rate.toNat (padMessage rate.toNat ds msg) (msg.length / rate.toNat)) :=
  keccakState_ext_bytes fun j hj => by
    have hmod := Nat.mod_lt msg.length hrate
    have hdiv := Nat.div_add_mod' msg.length rate.toNat
    have hdrop : (msg.drop (msg.length / rate.toNat * rate.toNat)).getD j 0 =
        msg.getD (msg.length / rate.toNat * rate.toNat + j) 0 := by simp [List.getD_eq_getElem?_getD]
    rw [stateByte_padState _ _ hrate hj, stateByte_xorBytes _ _ _ hj, if_pos (Nat.zero_le j), Nat.sub_zero, hdrop,
      stateByte_xorBlock _ _ hj, blockAt_getD, hpos, BitVec.xor_assoc, BitVec.xor_assoc]
    congr 1
    by_cases hjn : j < rate.toNat
    · have hsep : msg.length / rate.toNat * rate.toNat + j = msg.length ↔ j = msg.length % rate.toNat := by omega
      have hend : msg.length / rate.toNat * rate.toNat + j = (msg.length / rate.toNat + 1) * rate.toNat - 1 ↔
          j = rate.toNat - 1 := by
        rw [Nat.add_one_mul]
        omega
      rw [if_pos hjn, padMessage_getD hrate, BitVec.xor_assoc]
      simp only [hsep, hend]
    · rw [if_neg hjn, List.getD_eq_default _ _ (by omega), if_neg (by omega), if_neg (by omega)]
      rfl

/-- R175: absorbing byte by byte and padding in place is absorbing the padded message block by block. -/
theorem keccakF_padState_absorb (hrate : 0 < rate.toNat) (ds : Byte) (msg : List Byte) :
    keccakF (padState (absorb rate ⟨zeroLanes, 0, 0⟩ msg).ks (absorb rate ⟨zeroLanes, 0, 0⟩ msg).pos rate ds) =
      absorbedState rate.toNat ds msg := by
  have hmod := Nat.mod_lt msg.length hrate
  have hdiv := Nat.div_add_mod' msg.length rate.toNat
  have hrest : (msg.drop (msg.length / rate.toNat * rate.toNat)).length = msg.length % rate.toNat := by
    rw [List.length_drop]
    omega
  have hpos : (BitVec.ofNat 8 (msg.length % rate.toNat)).toNat = msg.length % rate.toNat := by bv_omega
  have hne : BitVec.ofNat 8 (msg.length % rate.toNat) ≠ rate := by bv_omega
  have hrun : absorb rate ⟨zeroLanes, 0, 0⟩ msg =
      ⟨xorBytes (absorbBlocks rate.toNat msg (msg.length / rate.toNat)) 0
        (msg.drop (msg.length / rate.toNat * rate.toNat)), BitVec.ofNat 8 (msg.length % rate.toNat),
        msg.length / rate.toNat⟩ := by
    conv_lhs => rw [← List.take_append_drop (msg.length / rate.toNat * rate.toNat) msg]
    rw [absorb_append, absorb_blocks hrate _ _ (by omega), absorb_from_block_start _ _ _ hrate (by omega), hrest]
    exact refill_of_ne hne
  rw [hrun, padState_eq_xorBlock _ hrate ds msg hpos, absorbedState_eq, absorbBlocks_succ,
    absorbBlocks_padMessage hrate ds msg _ (by omega)]

end Sys2Proof.Machine
end

section
/-! A whole session (R171 to R175): what SFINAL leaves is the one-shot sponge's state, and SSQUEEZE reads its stream. -/

namespace Sys2Proof.Machine

open Reference

/-- SINIT, SABSORB and SFINAL in a row, on the message at `a`. -/
def State.finalSession (s : State) (v : Variant) (ds : Byte) (a n : Word) : State :=
  ((s.opened v).absorbed a n).finalized ds

theorem finalSession_spongeRun (s : State) (v : Variant) (ds : Byte) (a n : Word) :
    (s.finalSession v ds a n).spongeRun =
      ⟨absorbedState (variantRate v).toNat ds (s.buf.read a.toNat n.toNat), 0, 0⟩ := by
  rw [← keccakF_padState_absorb (variantRate_range v).1]
  rfl

/-- R174, R175: byte k that an SSQUEEZE writes right after SFINAL. -/
theorem squeeze_finalSession_getD (s : State) (v : Variant) (ds : Byte) (a n : Word) {l k : Nat} (hk : k < l) :
    (squeeze (variantRate v) l (s.finalSession v ds a n).spongeRun).1.getD k 0 =
      shakeByte v ds (s.buf.read a.toNat n.toNat) k := by
  obtain ⟨hrate, hmax⟩ := variantRate_range v
  rw [finalSession_spongeRun, squeeze_getD hrate (by omega) (Nat.zero_le _) hk, BitVec.ofNat_eq_ofNat,
    BitVec.toNat_ofNat, Nat.zero_mod, Nat.zero_add]
  rfl

/-- Settles O28: each command completes, and the buffer is the old one with the stream written at `b`. -/
theorem sessionEqualsOneShotSponge : Obligations.SessionEqualsOneShotSponge := by
  intro v ds s a n b l hmsg hout
  have hbyte (x : Nat) : ((s.finalSession v ds a n).squeezed b l).buf.byte x =
      if b.toNat ≤ x ∧ x < b.toNat + l.toNat then
        (squeeze (variantRate v) l.toNat (s.finalSession v ds a n).spongeRun).1.getD (x - b.toNat) 0
      else s.buf.byte x := by
    have h := byte_write s.buf b.toNat (squeeze (variantRate v) l.toNat (s.finalSession v ds a n).spongeRun).1 x
    rwa [squeeze_length] at h
  refine ⟨s.opened v, (s.opened v).absorbed a n, s.finalSession v ds a n, (s.finalSession v ds a n).squeezed b l,
    exec_sinit v s, exec_sabsorb_args rfl hmsg, exec_sfinal_in_phase ds rfl, exec_ssqueeze_args rfl hout,
    fun k hk => ?stream, fun x hx => ?kept⟩
  case stream =>
    rw [hbyte, if_pos (by omega), Nat.add_sub_cancel_left, squeeze_finalSession_getD s v ds a n hk]
    rfl
  case kept => rw [hbyte, if_neg (by omega)]

end Sys2Proof.Machine
end

section
/-! The phase machine (R170): which commands move SP_PHASE, and what the sponge's commands answer out of phase. -/

namespace Sys2Proof.Machine

variable {s t u : State} {body : Except Err State}

/-- Whatever the body's results are, they leave the phase. -/
def KeepsPhase (s : State) (body : Except Err State) : Prop := ∀ u, body = .ok u → u.spPhase = s.spPhase

theorem keepsPhase_ok (h : u.spPhase = s.spPhase) : KeepsPhase s (.ok u) := fun w hw => by
  cases hw
  exact h

theorem keepsPhase_checked (h : KeepsPhase s body) {c : Prop} [Decidable c] {e : Err} :
    KeepsPhase s (if c then .error e else body) := fun u hu => h u (checked_eq_ok_iff.1 hu).2

/-- A failure leaves the phase too (R306). -/
theorem perform_keeps_phase (he : perform s body = .next t) (h : KeepsPhase s body) : t.spPhase = s.spPhase := by
  obtain ⟨u, hu, rfl⟩ | ⟨e, -, rfl⟩ := perform_cases he
  · exact h u hu
  · rfl

/-- R170: the commands that do not move the phase machine. -/
theorem exec_keeps_phase (i : Instr) (hsinit : ∀ v, i ≠ .sinit v) (hsfinal : ∀ ds, i ≠ .sfinal ds)
    (hkzero : i ≠ .kzero) (hwipe : i ≠ .wipe) (he : exec i s = .next t) : t.spPhase = s.spPhase := by
  cases i with
  | sinit v => exact absurd rfl (hsinit v)
  | sfinal ds => exact absurd rfl (hsfinal ds)
  | kzero => exact absurd rfl hkzero
  | wipe => exact absurd rfl hwipe
  | kperm | montr | fqmul | bred | dred =>
    cases he
    rfl
  | dcsub | pstore | ntt | intt | pmul | pmac | cbd =>
    exact perform_keeps_phase he (keepsPhase_checked (keepsPhase_ok rfl))
  | sabsorb | ssqueeze | pload =>
    exact perform_keeps_phase he (keepsPhase_checked (keepsPhase_checked (keepsPhase_ok rfl)))

theorem exec_sabsorb_out_of_phase (h : s.spPhase ≠ phaseAbsorb) : exec .sabsorb s = .next (s.fail .seq) :=
  perform_check_fails h

theorem exec_sfinal_out_of_phase (ds : Byte) (h : s.spPhase ≠ phaseAbsorb) :
    exec (.sfinal ds) s = .next (s.fail .seq) :=
  perform_check_fails h

theorem exec_ssqueeze_out_of_phase (h : s.spPhase ≠ phaseSqueeze) : exec .ssqueeze s = .next (s.fail .seq) :=
  perform_check_fails h

/-- Settles O30: the commands that move the machine by their equations, the others by `exec_keeps_phase`. -/
theorem spongePhaseMachine : Obligations.SpongePhaseMachine := by
  intro s t i v ds r w refused
  refine ⟨fun he => ?sinit, fun hphase he => ?sabsorb, fun hphase he => ?sfinal, fun hphase he => ?ssqueeze,
    fun he => ?kzero, fun he => ?wipe, rfl,
    fun hne => ⟨exec_sabsorb_out_of_phase hne, exec_sfinal_out_of_phase ds hne⟩, exec_ssqueeze_out_of_phase,
    fun hi hsfinal he => ?others, rfl, rfl⟩
  case sinit | kzero | wipe =>
    cases he
    rfl
  case sfinal =>
    rw [exec_sfinal_in_phase ds hphase] at he
    cases he
    rfl
  case sabsorb => exact (exec_keeps_phase .sabsorb nofun nofun nofun nofun he).trans hphase
  case ssqueeze => exact (exec_keeps_phase .ssqueeze nofun nofun nofun nofun he).trans hphase
  case others =>
    refine exec_keeps_phase i (fun v => ?_) hsfinal (by rintro rfl; simp at hi) (by rintro rfl; simp at hi) he
    cases v <;> (rintro rfl; simp at hi)

end Sys2Proof.Machine
end

section
/-! Montgomery reduction (R201, R202): 3327 is -1/3329 mod 2^16 (R207), so the shift is exact. -/

namespace Sys2Proof.Machine

theorem montU_nonneg (a : Int) : 0 ≤ montU a := Int.emod_nonneg _ (by decide)

theorem montU_lt (a : Int) : montU a < 65536 := Int.emod_lt_of_pos _ (by decide)

/-- The reading of `a` as u32 keeps its low half, hence u. -/
theorem montU_congr (a : Int) : (a * 3327 - montU a) % 65536 = 0 := by
  rw [montU, qInv]
  omega

/-- `a + u * q` is a multiple of 2^16: `3327 * 3329 = 169 * 2^16 - 1` (R207). -/
theorem montRaw_mul (a : Int) : montRaw a * 65536 = a + montU a * 3329 := by
  have hu := montU_congr a
  rw [montRaw, qKyber]
  omega

/-- The canonical result is `a * 2^-16` mod q (R201). -/
theorem montRaw_emod_congr (a : Int) : (montRaw a % 3329 * 65536 - a) % 3329 = 0 := by
  have h := montRaw_mul a
  omega

/-- R201: a' lies in `[a / 2^16, (a + 65535 * q) / 2^16]`. -/
theorem montRaw_bounds {a lo hi : Int} (hlo : lo * 65536 ≤ a) (hhi : a + 65535 * 3329 < (hi + 1) * 65536) :
    lo ≤ montRaw a ∧ montRaw a ≤ hi := by
  have h := montRaw_mul a
  have hu0 := montU_nonneg a
  have hu := montU_lt a
  omega

theorem exec_montr (s : State) : exec .montr s = .next (s.montgomery (s32 s.arg2)).complete := rfl

theorem exec_fqmul (s : State) : exec .fqmul s = .next (s.montgomery (s16 s.arg2 * s16 s.arg3)).complete := rfl

/-- The halves that FQMUL and BRED read. -/
theorem toInt_low_half (v : Word) : (v.extractLsb' 0 16).toInt = s16 v := by
  rw [s16, BitVec.setWidth_eq_extractLsb' (by decide)]

theorem s16_bounds (v : Word) : -32768 ≤ s16 v ∧ s16 v ≤ 32767 :=
  ⟨(v.setWidth 16).le_toInt, Int.le_of_lt_add_one (v.setWidth 16).toInt_lt⟩

/-- Two signed halves multiply to at most 2^30 in magnitude. -/
theorem s16_mul_bounds (v w : Word) : -1073741824 ≤ s16 v * s16 w ∧ s16 v * s16 w ≤ 1073741824 := by
  have hv := s16_bounds v
  have hw := s16_bounds w
  have h : |s16 v * s16 w| ≤ 32768 * 32768 := by
    rw [abs_mul]
    exact mul_le_mul (abs_le.2 (by omega)) (abs_le.2 (by omega)) (abs_nonneg _) (by decide)
  exact abs_le.1 h

/-- Settles O31: u and a' are the model's own, and a' is bounded by the range of a signed word. -/
theorem montrReduces : Obligations.MontrReduces := by
  intro s
  have hlo := s.arg2.le_toInt
  have hhi := s.arg2.toInt_lt
  obtain ⟨hmin, hmax⟩ := montRaw_bounds (a := s.arg2.toInt) (lo := -32768) (hi := 36096) (by omega) (by omega)
  exact ⟨montU s.arg2.toInt, montRaw s.arg2.toInt, montU_nonneg _, montU_lt _, montU_congr _, montRaw_mul _, hmin, hmax,
    montRaw_emod_congr _, exec_montr s⟩

/-- Settles O32: as O31, and a' is bounded by the range of a product of signed halves. -/
theorem fqmulReducesProduct : Obligations.FqmulReducesProduct := by
  intro s
  rw [toInt_low_half, toInt_low_half]
  obtain ⟨hlo, hhi⟩ := s16_mul_bounds s.arg2 s.arg3
  obtain ⟨hmin, hmax⟩ := montRaw_bounds (lo := -16384) (hi := 19713) hlo (by omega)
  exact ⟨montU (s16 s.arg2 * s16 s.arg3), montRaw (s16 s.arg2 * s16 s.arg3), montU_nonneg _, montU_lt _, montU_congr _,
    montRaw_mul _, hmin, hmax, montRaw_emod_congr _, exec_fqmul s⟩

end Sys2Proof.Machine
end

section
/-! Barrett reduction (R203): the quotient by 2^26 and 20159 is the rounded quotient by 3329 (R208). -/

namespace Sys2Proof.Machine

/-- `20159 * 3329 = 2^26 + 447`, so r is q times the rounding error of the quotient, less `447 * a / 2^26` (R208). -/
theorem barrettR_mul (a : Int) :
    barrettR a * 67108864 = 3329 * ((20159 * a + 33554432) % 67108864 - 33554432) - 447 * a := by
  rw [barrettR, barrettT, barrettV, qKyber]
  omega

/-- The error is at most a half, and `447 * a / 2^26` below a quarter on 16 bits (R208). -/
theorem barrettR_bounds {a : Int} (hlo : -32768 ≤ a) (hhi : a ≤ 32767) : -1664 ≤ barrettR a ∧ barrettR a ≤ 1664 := by
  have h := barrettR_mul a
  omega

theorem barrettR_congr (a : Int) : (a - barrettR a) % 3329 = 0 := by
  rw [barrettR, qKyber]
  omega

/-- The branch-free correction makes the centred remainder canonical. -/
theorem barrettR_corrected {a : Int} (hlo : -1664 ≤ barrettR a) (hhi : barrettR a ≤ 1664) :
    barrettR a + (if barrettR a < 0 then (qKyber : Int) else 0) = a % 3329 := by
  have hcongr := barrettR_congr a
  rw [qKyber]
  split <;> omega

theorem exec_bred (s : State) :
    exec .bred s = .next (s.writeRes
      (BitVec.ofInt 32 (barrettR (s16 s.arg2) + if barrettR (s16 s.arg2) < 0 then (qKyber : Int) else 0))
      (sext32 (barrettR (s16 s.arg2)))).complete := rfl

/-- Settles O33: the centred remainder is in range, so its correction is a mod q. -/
theorem bredReduces : Obligations.BredReduces := by
  intro s
  obtain ⟨hlo, hhi⟩ := s16_bounds s.arg2
  obtain ⟨hmin, hmax⟩ := barrettR_bounds hlo hhi
  rw [toInt_low_half]
  refine ⟨barrettR (s16 s.arg2), hmin, hmax, barrettR_congr _, ?_⟩
  rw [exec_bred, barrettR_corrected hmin hmax]
  rfl

end Sys2Proof.Machine
end

section
/-! The Dilithium reducer (R204, R205): the remainder, and the conditional subtraction as a select under a mask. -/

namespace Sys2Proof.Machine

theorem exec_dred (s : State) :
    exec .dred s = .next (s.writeRes (BitVec.ofInt 32 (s64 s.arg3 s.arg2 % qDilithium)) 0).complete := rfl

/-- R205: below 2q, subtracting q under the mask is reducing mod q. -/
theorem sub_masked_eq_mod {v : Word} (h : v.toNat < 2 * qDilithium) :
    v - (BitVec.ofNat 32 qDilithium &&& if qDilithium ≤ u32 v then 0xFFFFFFFF else 0) =
      BitVec.ofNat 32 (v.toNat % qDilithium) := by
  by_cases hq : qDilithium ≤ v.toNat
  · have hand : BitVec.ofNat 32 qDilithium &&& 0xFFFFFFFF = BitVec.ofNat 32 qDilithium := by decide
    rw [u32, if_pos hq, hand, Nat.mod_eq_sub_mod hq, Nat.mod_eq_of_lt (by omega),
      ← BitVec.ofNat_sub_ofNat_of_le _ _ (by decide) hq, BitVec.ofNat_toNat, BitVec.setWidth_eq]
  · rw [u32, if_neg hq, Nat.mod_eq_of_lt (by omega)]
    simp

theorem exec_dcsub_below {s : State} (h : s.arg2.toNat < 2 * qDilithium) :
    exec .dcsub s = .next (s.writeRes (BitVec.ofNat 32 (s.arg2.toNat % qDilithium)) 0).complete := by
  rw [← sub_masked_eq_mod h]
  exact perform_check_passes (Nat.not_le.2 h)

theorem exec_dcsub_range {s : State} (h : 2 * qDilithium ≤ s.arg2.toNat) :
    exec .dcsub s = .next (s.fail .range) :=
  perform_check_fails h

/-- Settles O34: DRED by its equation, DCSUB by one equation on each side of 2q. -/
theorem dredAndDcsubReduce : Obligations.DredAndDcsubReduce :=
  fun s => ⟨exec_dred s, exec_dcsub_below, exec_dcsub_range⟩

end Sys2Proof.Machine
end

section
/-! The coefficients of the ring's results as numbers (R230, R239, R240, R246): each is stored reduced mod q. -/

namespace Sys2Proof.Machine

variable {q : Nat}

/-- A number reduced mod q fits a word (R9). -/
theorem toNat_ofNat_mod (hq : 0 < q) (hfit : q ≤ 2 ^ 32) (n : Nat) : (BitVec.ofNat 32 (n % q)).toNat = n % q :=
  (BitVec.toNat_ofNat _ _).trans (Nat.mod_eq_of_lt ((Nat.mod_lt n hq).trans_le hfit))

theorem ringQ_le_word (rg : Ring) : ringQ rg ≤ 2 ^ 32 := by cases rg <;> decide

theorem toNat_addMod (hq : 0 < q) (hfit : q ≤ 2 ^ 32) (a b : Word) :
    (addMod q a b).toNat = (a.toNat + b.toNat) % q := toNat_ofNat_mod hq hfit _

theorem toNat_mulMod (hq : 0 < q) (hfit : q ≤ 2 ^ 32) (z : Nat) (a : Word) :
    (mulMod q z a).toNat = z * a.toNat % q := toNat_ofNat_mod hq hfit _

/-- R239: the constant coefficient of product i, with GK[i] as the power of R233. -/
theorem coef_mulK_even (a b : PolyReg) {i : Nat} (hi : i < 128) :
    (coef (mulK a b) (2 * i)).toNat =
      ((coef a (2 * i)).toNat * (coef b (2 * i)).toNat +
        (coef a (2 * i + 1)).toNat * (coef b (2 * i + 1)).toNat * 17 ^ (2 * bitRev 7 i + 1)) % 3329 := by
  have hdiv : 2 * i / 2 = i := by omega
  have heven : 2 * i % 2 = 0 := by omega
  rw [mulK, coef_mkPoly, if_pos (by omega)]
  dsimp only
  rw [if_pos heven, hdiv, toNat_ofNat_mod (by decide) (by decide)]
  exact ((Nat.mod_modEq _ _).mul_left _).add_left _

/-- R239: the X coefficient of product i. -/
theorem coef_mulK_odd (a b : PolyReg) {i : Nat} (hi : i < 128) :
    (coef (mulK a b) (2 * i + 1)).toNat =
      ((coef a (2 * i)).toNat * (coef b (2 * i + 1)).toNat +
        (coef a (2 * i + 1)).toNat * (coef b (2 * i)).toNat) % 3329 := by
  have hdiv : (2 * i + 1) / 2 = i := by omega
  have hodd : ¬ (2 * i + 1) % 2 = 0 := by omega
  rw [mulK, coef_mkPoly, if_pos (by omega)]
  dsimp only
  rw [if_neg hodd, hdiv, toNat_ofNat_mod (by decide) (by decide)]
  rfl

/-- R240. -/
theorem coef_mulD (a b : PolyReg) {i : Nat} (hi : i < 256) :
    (coef (mulD a b) i).toNat = (coef a i).toNat * (coef b i).toNat % 8380417 := by
  rw [mulD, coef_mkPoly, if_pos hi]
  exact toNat_mulMod (by decide) (by decide) _ _

/-- R246. -/
theorem coef_addRing (rg : Ring) (c h : PolyReg) {i : Nat} (hi : i < 256) :
    (coef (addRing rg c h) i).toNat = ((coef c i).toNat + (coef h i).toNat) % ringQ rg := by
  rw [addRing, coef_mkPoly, if_pos hi]
  exact toNat_addMod (ringQ_pos rg) (ringQ_le_word rg) _ _

/-- Settles O44: each result is canonical because its last operation reduces. -/
theorem ringResultsAreCanonical : Obligations.RingResultsAreCanonical := fun rg f g h i hi =>
  ⟨(canon_iff _ _).1 (canon_nttRing rg f) i hi, (canon_iff _ _).1 (canon_inttRing rg f) i hi,
    (canon_iff _ _).1 (canon_mulRing rg f g) i hi, (canon_iff _ _).1 (canon_addRing rg h _) i hi⟩

end Sys2Proof.Machine
end

section
/-! The range check of the ring commands (R230, R305): canonical sources pass it, others fail it. -/

namespace Sys2Proof.Machine

variable {f : PolyReg} {q : Nat} {s : State} {rg : Ring} {rd rs1 rs2 : PReg}

theorem canon_eq_false {i : Nat} (hi : i < 256) (h : q ≤ (coef f i).toNat) : canon f q = false :=
  Bool.eq_false_iff.2 fun hf => absurd ((canon_iff f q).1 hf i hi) (Nat.not_lt.2 h)

/-- R243 on a canonical source. -/
theorem exec_ntt_canonical (h : ∀ i < 256, (coef (s.readP rs1) i).toNat < ringQ rg) :
    exec (.ntt rg rd rs1) s = .next (s.writeP rd (nttRing rg (s.readP rs1))).complete :=
  perform_check_passes (by simp [(canon_iff _ _).2 h])

/-- R244 on a canonical source. -/
theorem exec_intt_canonical (h : ∀ i < 256, (coef (s.readP rs1) i).toNat < ringQ rg) :
    exec (.intt rg rd rs1) s = .next (s.writeP rd (inttRing rg (s.readP rs1))).complete :=
  perform_check_passes (by simp [(canon_iff _ _).2 h])

/-- R245 on canonical sources. -/
theorem exec_pmul_canonical (h1 : ∀ i < 256, (coef (s.readP rs1) i).toNat < ringQ rg)
    (h2 : ∀ i < 256, (coef (s.readP rs2) i).toNat < ringQ rg) :
    exec (.pmul rg rd rs1 rs2) s = .next (s.writeP rd (mulRing rg (s.readP rs1) (s.readP rs2))).complete :=
  perform_check_passes (by simp [(canon_iff _ _).2 h1, (canon_iff _ _).2 h2])

/-- R246 on canonical sources, the destination among them. -/
theorem exec_pmac_canonical (hd : ∀ i < 256, (coef (s.readP rd) i).toNat < ringQ rg)
    (h1 : ∀ i < 256, (coef (s.readP rs1) i).toNat < ringQ rg)
    (h2 : ∀ i < 256, (coef (s.readP rs2) i).toNat < ringQ rg) :
    exec (.pmac rg rd rs1 rs2) s =
      .next (s.writeP rd (addRing rg (s.readP rd) (mulRing rg (s.readP rs1) (s.readP rs2)))).complete :=
  perform_check_passes (by simp [(canon_iff _ _).2 hd, (canon_iff _ _).2 h1, (canon_iff _ _).2 h2])

/-- What a register holds after a command that ended by writing it. -/
theorem readP_complete_writeP (s : State) (r : PReg) (f : PolyReg) : (s.writeP r f).complete.readP r = f :=
  (readP_writeP s r r f).trans (if_pos rfl)

/-- A command that writes one register of P changes that register and its completion's fields only. -/
theorem complete_writeP_frame (s : State) (r : PReg) (f : PolyReg) :
    (s.writeP r f).complete = { s with
      p := s.p.set r.val ((s.writeP r f).complete.readP r) r.isLt, busy := false, done := true, cur := 0 } := by
  rw [readP_complete_writeP]
  rfl

/-- Settles O38: both commands by their equation on a canonical source. -/
theorem nttAndInttComplete : Obligations.NttAndInttComplete := fun _ _ _ _ h =>
  ⟨exec_ntt_canonical h, exec_intt_canonical h⟩

/-- Settles O47: the check of each command fails at coefficient i of the source that is not canonical. -/
theorem nonCanonicalSourcesRaiseRange : Obligations.NonCanonicalSourcesRaiseRange := by
  intro rg rd rs1 rs2 s i hi refused
  have bad {r : PReg} (h : ringQ rg ≤ (coef (s.readP r) i).toNat) : canon (s.readP r) (ringQ rg) = false :=
    canon_eq_false hi h
  refine ⟨fun h => ⟨?ntt, ?intt⟩, fun h => ?pmul, fun h => ?pmac⟩
  case ntt | intt => exact perform_check_fails (by simp [bad h])
  case pmul =>
    rcases h with h | h <;> exact perform_check_fails (by simp [bad h])
  case pmac =>
    rcases h with h | h | h <;> exact perform_check_fails (by simp [bad h])

/-- Settles O45: PMUL's equation, and the product coefficient by coefficient. -/
theorem pmulMultiplies : Obligations.PmulMultiplies := by
  intro rg rd rs1 rs2 s a b ha hb
  refine ⟨_, exec_pmul_canonical ha hb, complete_writeP_frame s rd _, ?kyber, ?dilithium⟩
  all_goals rw [readP_complete_writeP]; rintro rfl i hi
  case kyber => exact ⟨coef_mulK_even _ _ hi, coef_mulK_odd _ _ hi⟩
  case dilithium => exact coef_mulD _ _ hi

/-- Settles O46: PMAC's equation, and the sum coefficient by coefficient. -/
theorem pmacAccumulates : Obligations.PmacAccumulates := by
  intro rg rd rs1 rs2 s hd h1 h2
  refine ⟨_, exec_pmac_canonical hd h1 h2, complete_writeP_frame s rd _, fun i hi => ?_⟩
  rw [readP_complete_writeP, coef_addRing rg _ _ hi]

end Sys2Proof.Machine
end

section
/-! PLOAD and PSTORE (R241, R242): the 1024 bytes of a polynomial, word by word. -/

namespace Sys2Proof.Machine

variable {s : State} {rg : Ring} {rd rs1 : PReg}

/-- The value of four bytes of the buffer (R11). -/
theorem toNat_leWord_read_four (m : Memory) (a : Nat) :
    (leWord (m.read a 4)).toNat =
      (m.byte a).toNat + 256 * (m.byte (a + 1)).toNat + 65536 * (m.byte (a + 2)).toNat +
        16777216 * (m.byte (a + 3)).toNat := by
  have hread : m.read a 4 = [m.byte a, m.byte (a + 1), m.byte (a + 2), m.byte (a + 3)] := rfl
  have hlt (x : Nat) : (m.byte x).toNat < 256 := (m.byte x).isLt
  have h0 := hlt a
  have h1 := hlt (a + 1)
  have h2 := hlt (a + 2)
  have h3 := hlt (a + 3)
  rw [hread, leWord, BitVec.toNat_ofNat]
  simp only [leNat]
  omega

theorem coef_loadPoly (m : Memory) (a : Nat) {i : Nat} (hi : i < 256) :
    coef (loadPoly m a) i = leWord (m.read (a + 4 * i) 4) := by rw [loadPoly, coef_mkPoly, if_pos hi]

/-- Entry k of block i in a sequence of blocks of length n. -/
theorem getD_flatMap_blocks {α β : Type} {g : α → List β} {n : Nat} (hg : ∀ x, (g x).length = n) (l : List α)
    {i k : Nat} (hk : k < n) (hi : i < l.length) (d : α) (e : β) :
    (l.flatMap g).getD (n * i + k) e = (g (l.getD i d)).getD k e := by
  induction l generalizing i with
  | nil => simp at hi
  | cons x l ih =>
    rw [List.flatMap_cons]
    cases i with
    | zero => rw [List.getD_append _ _ _ _ (by rw [hg]; omega)]; simp
    | succ i =>
      have hindex : n * (i + 1) + k - (g x).length = n * i + k := by rw [hg, Nat.mul_succ]; omega
      rw [List.getD_append_right _ _ _ _ (by rw [hg, Nat.mul_succ]; omega), hindex,
        ih (by simpa using hi), List.getD_cons_succ]

/-- R231: byte k of the word of coefficient i. -/
theorem polyBytes_getD (f : PolyReg) {i k : Nat} (hi : i < 256) (hk : k < 4) :
    (polyBytes f).getD (4 * i + k) 0 = (leBytes 4 (coef f i)).getD k 0 :=
  getD_flatMap_blocks (leBytes_length 4) f.toList hk (by simpa using hi) 0 0

/-- R242: the buffer after PSTORE, at the bytes of the polynomial. -/
theorem byte_write_polyBytes (m : Memory) (a : Nat) (f : PolyReg) {i k : Nat} (hi : i < 256) (hk : k < 4) :
    (m.write a (polyBytes f)).byte (a + 4 * i + k) = (leBytes 4 (coef f i)).getD k 0 := by
  have hoffset : a + 4 * i + k - a = 4 * i + k := by omega
  rw [byte_write, if_pos (by rw [polyBytes_length]; omega), hoffset, polyBytes_getD f hi hk]

/-- R231: a polynomial read back from where it was stored. -/
theorem loadPoly_write_polyBytes (m : Memory) (a : Nat) (f : PolyReg) : loadPoly (m.write a (polyBytes f)) a = f := by
  refine poly_ext fun i hi => ?_
  have hread : (m.write a (polyBytes f)).read (a + 4 * i) 4 = leBytes 4 (coef f i) := by
    refine List.ext_getElem (by simp) fun k _ hk => ?_
    rw [leBytes_length] at hk
    rw [read_getElem, byte_write_polyBytes m a f hi hk, List.getD_eq_getElem]
  have hfit : (coef f i).toNat < 256 ^ 4 := (coef f i).isLt
  rw [coef_loadPoly _ _ hi, hread, leWord, leNat_leBytes, Nat.mod_eq_of_lt hfit, BitVec.ofNat_toNat, BitVec.setWidth_eq]

/-- R241 in bounds with canonical words. -/
theorem exec_pload_canonical (hfit : argAddress s + 1024 ≤ s.cfg.bufBytes)
    (h : ∀ i < 256, (coef (loadPoly s.buf (argAddress s)) i).toNat < ringQ rg) :
    exec (.pload rg rd) s = .next (s.writeP rd (loadPoly s.buf (argAddress s))).complete :=
  (perform_in_bounds hfit).trans (perform_check_passes (by simp [(canon_iff _ _).2 h]))

/-- R242 in bounds. -/
theorem exec_pstore_in_bounds (hfit : argAddress s + 1024 ≤ s.cfg.bufBytes) :
    exec (.pstore rs1) s =
      .next (State.complete { s with buf := s.buf.write (argAddress s) (polyBytes (s.readP rs1)) }) :=
  perform_in_bounds hfit

/-- Settles O35: in bounds only the words decide, and each is a coefficient of what is loaded. -/
theorem ploadReadsPolynomial : Obligations.PloadReadsPolynomial := by
  intro rg rd s hfit word
  have hword : ∀ i < 256, (coef (loadPoly s.buf (argAddress s)) i).toNat = word i := fun i hi => by
    rw [coef_loadPoly _ _ hi, toNat_leWord_read_four]
  refine ⟨fun hcanon => ?loads, fun i hi hbad => ?refuses⟩
  case loads =>
    refine ⟨_, exec_pload_canonical hfit fun i hi => by rw [hword i hi]; exact hcanon i hi, fun i hi => ?_,
      complete_writeP_frame s rd _⟩
    rw [readP_complete_writeP, hword i hi]
  case refuses =>
    have hfalse : canon (loadPoly s.buf (argAddress s)) (ringQ rg) = false :=
      canon_eq_false hi (by rw [hword i hi]; exact hbad)
    exact (perform_in_bounds hfit).trans (perform_check_fails (by simp [hfalse]))

/-- Settles O36: PSTORE's equation, and `MemWrite` byte by byte. -/
theorem pstoreWritesPolynomial : Obligations.PstoreWritesPolynomial := by
  intro rs1 s hfit
  refine ⟨_, exec_pstore_in_bounds hfit, rfl, fun i hi k hk => ?written, fun x hx => ?kept⟩
  case written => rw [complete_buf, byte_write_polyBytes _ _ _ hi hk, leBytes_getD hk]
  case kept => rw [complete_buf, byte_write, polyBytes_length, if_neg (by omega)]

/-- Settles O37: PSTORE leaves ARG0, so PLOAD reads the place that was written, and finds the canonical polynomial. -/
theorem ploadAfterPstoreRestores : Obligations.PloadAfterPstoreRestores := by
  intro rg rd rs1 s hfit hcanon
  have hback := loadPoly_write_polyBytes s.buf (argAddress s) (s.readP rs1)
  refine ⟨_, _, exec_pstore_in_bounds hfit, exec_pload_canonical hfit fun i hi => ?canonical, ?restored⟩
  case canonical => exact (congrArg (fun f => (coef f i).toNat) hback).trans_lt (hcanon i hi)
  case restored => exact (readP_complete_writeP _ _ _).trans hback

end Sys2Proof.Machine
end

section
/-! One layer of butterflies on any type of coefficients: a coefficient is one of a pair (j, j + len), and a butterfly
takes the pairs of its block of 2·len coefficients. The layers of the machine (R235 to R238) are of this form. -/

namespace Sys2Proof.Machine

/-- The layer of length `len` whose block b has the butterfly `w b`. -/
def butterflies {α : Type} (w : Nat → α × α → α × α) (len : Nat) (a : Nat → α) (j : Nat) : α :=
  if j % (2 * len) < len then (w (j / (2 * len)) (a j, a (j + len))).1 else (w (j / (2 * len)) (a (j - len), a j)).2

/-- The Cooley-Tukey butterfly of R235 and R237. -/
def ctWords (q z : Nat) (p : Word × Word) : Word × Word :=
  (addMod q p.1 (mulMod q z p.2), subMod q p.1 (mulMod q z p.2))

/-- The Gentleman-Sande butterfly of R236. -/
def gsWordsK (z : Nat) (p : Word × Word) : Word × Word :=
  (addMod qKyber p.1 p.2, mulMod qKyber z (subMod qKyber p.2 p.1))

/-- The Gentleman-Sande butterfly of R238. -/
def gsWordsD (z : Nat) (p : Word × Word) : Word × Word :=
  (addMod qDilithium p.1 p.2, mulMod qDilithium z (subMod qDilithium p.1 p.2))

theorem ctLayer_eq (q : Nat) (zeta : Nat → Nat) (f : PolyReg) (len : Nat) :
    ctLayer q zeta f len = mkPoly (butterflies (fun b => ctWords q (zeta (128 / len + b))) len (coef f)) := rfl

theorem gsLayerK_eq (f : PolyReg) (len : Nat) :
    gsLayerK f len =
      mkPoly (butterflies (fun b => gsWordsK (zetaKyber (2 * (128 / len) - 1 - b))) len (coef f)) := rfl

theorem gsLayerD_eq (f : PolyReg) (len : Nat) :
    gsLayerD f len = mkPoly (butterflies
      (fun b => gsWordsD ((qDilithium - zetaDilithium (2 * (128 / len) - 1 - b)) % qDilithium)) len (coef f)) := rfl

section
variable {α : Type} (w : Nat → α × α → α × α) (a : Nat → α) {len : Nat} (b : Nat) {r : Nat}

/-- The first half of block b. -/
theorem butterflies_low (hr : r < len) :
    butterflies w len a (2 * len * b + r) = (w b (a (2 * len * b + r), a (2 * len * b + r + len))).1 := by
  have hmod : (2 * len * b + r) % (2 * len) = r := by rw [Nat.mul_add_mod, Nat.mod_eq_of_lt (by omega)]
  have hdiv : (2 * len * b + r) / (2 * len) = b := by
    rw [Nat.mul_add_div (by omega), Nat.div_eq_of_lt (by omega), Nat.add_zero]
  rw [butterflies, hmod, if_pos hr, hdiv]

/-- The second half of block b. -/
theorem butterflies_high (hr : r < len) :
    butterflies w len a (2 * len * b + r + len) = (w b (a (2 * len * b + r), a (2 * len * b + r + len))).2 := by
  have hmod : (2 * len * b + r + len) % (2 * len) = r + len := by
    rw [Nat.add_assoc, Nat.mul_add_mod, Nat.mod_eq_of_lt (by omega)]
  have hdiv : (2 * len * b + r + len) / (2 * len) = b := by
    rw [Nat.add_assoc, Nat.mul_add_div (by omega), Nat.div_eq_of_lt (by omega), Nat.add_zero]
  rw [butterflies, hmod, if_neg (by omega), hdiv, Nat.add_sub_cancel]

end

/-- Every index is in the first or in the second half of a block. -/
theorem exists_block_index {len : Nat} (hlen : 0 < len) (j : Nat) :
    ∃ b r, r < len ∧ (j = 2 * len * b + r ∨ j = 2 * len * b + r + len) := by
  have hsplit := Nat.div_add_mod j (2 * len)
  have hmod := Nat.mod_lt j (Nat.mul_pos two_pos hlen)
  by_cases hlow : j % (2 * len) < len
  · exact ⟨_, _, hlow, .inl hsplit.symm⟩
  · exact ⟨j / (2 * len), j % (2 * len) - len, by omega, .inr (by omega)⟩

/-- The halves of block b, from the range of its indices. -/
theorem exists_index_in_block {len b i : Nat} (hlo : 2 * len * b ≤ i) (hhi : i < 2 * len * b + 2 * len) :
    ∃ r, r < len ∧ (i = 2 * len * b + r ∨ i = 2 * len * b + r + len) := by
  by_cases hlow : i < 2 * len * b + len
  · exact ⟨i - 2 * len * b, by omega, .inl (by omega)⟩
  · exact ⟨i - 2 * len * b - len, by omega, .inr (by omega)⟩

/-- A layer's results in block b depend on the coefficients of block b alone. -/
theorem butterflies_congr {α : Type} (w : Nat → α × α → α × α) {a a' : Nat → α} {len b i : Nat}
    (h : ∀ k, 2 * len * b ≤ k → k < 2 * len * b + 2 * len → a k = a' k)
    (hlo : 2 * len * b ≤ i) (hhi : i < 2 * len * b + 2 * len) : butterflies w len a i = butterflies w len a' i := by
  obtain ⟨r, hr, rfl | rfl⟩ := exists_index_in_block hlo hhi
  · rw [butterflies_low w a b hr, butterflies_low w a' b hr, h _ (by omega) (by omega), h _ (by omega) (by omega)]
  · rw [butterflies_high w a b hr, butterflies_high w a' b hr, h _ (by omega) (by omega), h _ (by omega) (by omega)]

end Sys2Proof.Machine
end

section
/-! The rules' in-place loops (R235 to R238) are layers: a block's loop touches the pairs of its block only, one after
another, so every butterfly reads the coefficients the layer started with. -/

namespace Sys2Proof.Reference

open Sys2Proof.Machine

theorem coef_setCoef (f : PolyReg) {i : Nat} (hi : i < 256) (v : Word) (k : Nat) :
    coef (setCoef f i v) k = if k = i then v else coef f k := by
  rw [setCoef, coef_mkPoly]
  by_cases hk : k < 256
  · rw [if_pos hk]
  · rw [if_neg hk, if_neg (by omega), coef_of_le f k (by omega)]

/-- The body of an innermost loop that performs the butterfly `w` on the pair (j, j + len) in place. -/
def IsButterfly (w : Word × Word → Word × Word) (len : Nat) (body : PolyReg → Nat → PolyReg) : Prop :=
  ∀ f j, j + len < 256 → ∀ i, coef (body f j) i =
    if i = j then (w (coef f j, coef f (j + len))).1
    else if i = j + len then (w (coef f j, coef f (j + len))).2 else coef f i

section
variable {len : Nat} (hlen : 0 < len)
include hlen

theorem isButterfly_ct (q z : Nat) : IsButterfly (ctWords q z) len (ctButterfly q z len) := by
  intro f j hj i
  have hne : j ≠ j + len := by omega
  rw [ctButterfly, coef_setCoef _ (by omega), coef_setCoef _ hj, coef_setCoef _ hj, if_neg hne]
  rfl

/-- The two assignments of a Gentleman-Sande butterfly. -/
theorem coef_setPair (f : PolyReg) {j : Nat} (hj : j + len < 256) (u v : Word) (i : Nat) :
    coef (setCoef (setCoef f j u) (j + len) v) i = if i = j then u else if i = j + len then v else coef f i := by
  rw [coef_setCoef _ hj, coef_setCoef _ (by omega)]
  split_ifs with hhigh hlow
  · omega
  · rfl
  · rfl
  · rfl

/-- The second coefficient of the pair is still the old one when the first has been assigned. -/
theorem coef_setCoef_partner (f : PolyReg) {j : Nat} (hj : j + len < 256) (u : Word) :
    coef (setCoef f j u) (j + len) = coef f (j + len) := by
  rw [coef_setCoef _ (by omega), if_neg (by omega)]

theorem isButterfly_gsK (z : Nat) : IsButterfly (gsWordsK z) len (gsButterflyK z len) := by
  intro f j hj i
  rw [gsButterflyK, coef_setCoef_partner hlen f hj, coef_setPair hlen f hj]
  rfl

theorem isButterfly_gsD (z : Nat) : IsButterfly (gsWordsD z) len (gsButterflyD z len) := by
  intro f j hj i
  rw [gsButterflyD, coef_setCoef_partner hlen f hj, coef_setPair hlen f hj]
  rfl

end

/-- The loop over j of a block after `n` of its `len` turns: the first `n` pairs are done. -/
theorem coef_blockLoop_turns {w : Word × Word → Word × Word} {len : Nat} {body : PolyReg → Nat → PolyReg}
    (hbody : IsButterfly w len body) (f : PolyReg) {start n : Nat} (hn : n ≤ len)
    (hfit : start + 2 * len ≤ 256) (i : Nat) :
    coef ((List.range n).foldl (fun g k => body g (start + k)) f) i =
      if start ≤ i ∧ i < start + n then (w (coef f i, coef f (i + len))).1
      else if start + len ≤ i ∧ i < start + len + n then (w (coef f (i - len), coef f i)).2
      else coef f i := by
  induction n generalizing i with
  | zero => rw [if_neg (by omega), if_neg (by omega)]; rfl
  | succ n ih =>
    have ih := ih (by omega)
    have hlow : coef ((List.range n).foldl (fun g k => body g (start + k)) f) (start + n) = coef f (start + n) := by
      rw [ih, if_neg (by omega), if_neg (by omega)]
    have hhigh : coef ((List.range n).foldl (fun g k => body g (start + k)) f) (start + n + len) =
        coef f (start + n + len) := by
      rw [ih, if_neg (by omega), if_neg (by omega)]
    rw [List.range_succ, List.foldl_append, List.foldl_cons, List.foldl_nil, hbody _ _ (by omega), hlow, hhigh]
    by_cases hi : i = start + n
    · rw [if_pos hi, if_pos (by omega), hi]
    · by_cases hi' : i = start + n + len
      · rw [if_neg hi, if_pos hi', if_neg (by omega), if_pos (by omega), hi', Nat.add_sub_cancel]
      · rw [if_neg hi, if_neg hi', ih]
        congr 1
        · exact propext ⟨by omega, by omega⟩
        · congr 1
          exact propext ⟨by omega, by omega⟩

/-- A whole block is the layer on its 2·len coefficients and leaves the others. -/
theorem coef_blockLoop {w : Nat → Word × Word → Word × Word} {len b : Nat} {body : Nat → PolyReg → Nat → PolyReg}
    (hbody : IsButterfly (w b) len (body len)) (f : PolyReg) (hfit : 2 * len * b + 2 * len ≤ 256) (i : Nat) :
    coef (blockLoop body len (2 * len * b) f) i =
      if 2 * len * b ≤ i ∧ i < 2 * len * b + 2 * len then butterflies w len (coef f) i else coef f i := by
  rw [blockLoop, coef_blockLoop_turns hbody f le_rfl hfit]
  by_cases hi : 2 * len * b ≤ i ∧ i < 2 * len * b + 2 * len
  · rw [if_pos hi]
    obtain ⟨r, hr, rfl | rfl⟩ := exists_index_in_block hi.1 hi.2
    · rw [if_pos (by omega), butterflies_low w _ b hr]
    · rw [if_neg (by omega), if_pos (by omega), butterflies_high w _ b hr, Nat.add_sub_cancel]
  · rw [if_neg hi, if_neg (by omega), if_neg (by omega)]

/-- The loop over the blocks of a layer after `n` of them, with its counter: the first `n` blocks are done. -/
theorem layerLoop_blocks {w : Nat → Word × Word → Word × Word} {len : Nat} {body : Nat → Nat → PolyReg → Nat → PolyReg}
    {next cnt : Nat → Nat} (hcnt : ∀ b, next (cnt b) = cnt (b + 1))
    (hbody : ∀ b, IsButterfly (w b) len (body (cnt b) len)) (f : PolyReg) {n : Nat} (hfit : 2 * len * n ≤ 256) :
    ((List.range n).map fun b => b * (2 * len)).foldl
        (fun st start => (next st.1, blockLoop (body st.1) len start st.2)) (cnt 0, f) =
      (cnt n, mkPoly fun i => if i < 2 * len * n then butterflies w len (coef f) i else coef f i) := by
  induction n with
  | zero => exact congrArg (Prod.mk (cnt 0)) (poly_ext fun i hi => by rw [coef_mkPoly, if_pos hi]; rfl)
  | succ n ih =>
    rw [Nat.mul_succ] at hfit
    rw [List.range_succ, List.map_append, List.foldl_append, ih (by omega), List.map_cons, List.map_nil,
      List.foldl_cons, List.foldl_nil, hcnt, Nat.mul_comm n]
    refine congrArg (Prod.mk _) (poly_ext fun i hi => ?_)
    rw [coef_blockLoop (hbody n) _ hfit, coef_mkPoly, coef_mkPoly, if_pos hi, if_pos hi, Nat.mul_succ]
    by_cases hblock : 2 * len * n ≤ i ∧ i < 2 * len * n + 2 * len
    · rw [if_pos hblock, if_pos hblock.2]
      refine butterflies_congr w (fun k hlo hhi => ?_) hblock.1 hblock.2
      rw [coef_mkPoly, if_pos (by omega), if_neg (by omega)]
    · rw [if_neg hblock]
      congr 1
      exact propext ⟨by omega, by omega⟩

/-- A layer's loops are the layer. -/
theorem layerLoop {w : Nat → Word × Word → Word × Word} {len : Nat} {body : Nat → Nat → PolyReg → Nat → PolyReg}
    {next cnt : Nat → Nat} (hcnt : ∀ b, next (cnt b) = cnt (b + 1))
    (hbody : ∀ b, IsButterfly (w b) len (body (cnt b) len)) (f : PolyReg) (hlen : 2 * len * (128 / len) = 256) :
    (blockStarts len).foldl (fun st start => (next st.1, blockLoop (body st.1) len start st.2)) (cnt 0, f) =
      (cnt (128 / len), mkPoly (butterflies w len (coef f))) := by
  rw [blockStarts, layerLoop_blocks hcnt hbody f hlen.le, hlen]
  refine congrArg (Prod.mk _) (poly_ext fun i hi => ?_)
  rw [coef_mkPoly, coef_mkPoly, if_pos hi, if_pos hi, if_pos hi]

/-- R235, R237: a layer that begins at counter 128 / len takes the zetas up to 2·(128 / len) - 1. -/
theorem ctLayerLoop (q : Nat) (zeta : Nat → Nat) {len c : Nat} (hc : c * len = 128) (f : PolyReg) :
    (blockStarts len).foldl (fun st start => (st.1 + 1, blockLoop (ctButterfly q (zeta st.1)) len start st.2)) (c, f) =
      (2 * c, ctLayer q zeta f len) := by
  have hpos : 0 < len := Nat.pos_of_ne_zero fun h => by simp [h] at hc
  have hdiv : 128 / len = c := Nat.div_eq_of_eq_mul_left hpos hc.symm
  rw [ctLayer_eq, hdiv, Nat.two_mul]
  exact hdiv ▸ layerLoop (body := fun k => ctButterfly q (zeta k)) (next := (· + 1)) (cnt := fun b => c + b)
    (fun _ => rfl) (fun _ => isButterfly_ct hpos q _) f (by rw [hdiv]; linarith)

/-- R236, R238: a layer that begins at counter 2·(128 / len) - 1 takes the zetas down to 128 / len. -/
theorem gsLayerLoop {w : Nat → Word × Word → Word × Word} {body : Nat → Nat → PolyReg → Nat → PolyReg}
    (hbody : ∀ m {len}, 0 < len → IsButterfly (w m) len (body m len)) {len c : Nat} (hc : (c / 2 + 1) * len = 128)
    (hodd : c % 2 = 1) (f : PolyReg) :
    (blockStarts len).foldl (fun st start => (st.1 - 1, blockLoop (body st.1) len start st.2)) (c, f) =
      (c / 2, mkPoly (butterflies (fun b => w (2 * (128 / len) - 1 - b)) len (coef f))) := by
  have hpos : 0 < len := Nat.pos_of_ne_zero fun h => by simp [h] at hc
  have hdiv : 128 / len = c / 2 + 1 := Nat.div_eq_of_eq_mul_left hpos hc.symm
  have htop : 2 * (128 / len) - 1 = c := by omega
  have hend : c - 128 / len = c / 2 := by omega
  rw [htop, ← hend]
  exact layerLoop (next := (· - 1)) (cnt := fun b => c - b) (fun _ => rfl) (fun _ => hbody _ hpos) f
    (by rw [hdiv]; linarith)

theorem scaleLoop_turns (q c : Nat) (f : PolyReg) {n : Nat} (hn : n ≤ 256) (i : Nat) :
    coef ((List.range n).foldl (fun g j => setCoef g j (mulMod q c (coef g j))) f) i =
      if i < n then mulMod q c (coef f i) else coef f i := by
  induction n generalizing i with
  | zero => rfl
  | succ n ih =>
    rw [List.range_succ, List.foldl_append, List.foldl_cons, List.foldl_nil, coef_setCoef _ (by omega),
      ih (by omega) n, if_neg n.lt_irrefl, ih (by omega) i]
    by_cases hi : i = n
    · rw [if_pos hi, if_pos (by omega), hi]
    · rw [if_neg hi]
      congr 1
      exact propext ⟨by omega, by omega⟩

theorem scaleLoop_eq (q c : Nat) (f : PolyReg) : scaleLoop q c f = scalePoly q c f :=
  poly_ext fun i hi => by rw [scaleLoop, scaleLoop_turns q c f le_rfl, if_pos hi, scalePoly, coef_mkPoly, if_pos hi]

theorem nttKLoop_eq (f : PolyReg) : nttKLoop f = nttK f := by
  simp (disch := decide) only [nttKLoop, forwardLoop, List.foldl_cons, List.foldl_nil, ctLayerLoop]
  rfl

theorem nttDLoop_eq (f : PolyReg) : nttDLoop f = nttD f := by
  simp (disch := decide) only [nttDLoop, forwardLoop, List.foldl_cons, List.foldl_nil, ctLayerLoop]
  rfl

theorem inttKLoop_eq (f : PolyReg) : inttKLoop f = inttK f := by
  simp (disch := decide) only [inttKLoop, inverseLoop, scaleLoop_eq, List.foldl_cons, List.foldl_nil,
    gsLayerLoop fun m _ hlen => isButterfly_gsK hlen (zetaKyber m), inttK, gsLayerK_eq, qKyber, nInv]

theorem inttDLoop_eq (f : PolyReg) : inttDLoop f = inttD f := by
  simp (disch := decide) only [inttDLoop, inverseLoop, scaleLoop_eq, List.foldl_cons, List.foldl_nil,
    gsLayerLoop fun m _ hlen => isButterfly_gsD hlen ((8380417 - zetaDilithium m) % 8380417), inttD, gsLayerD_eq,
    qDilithium, nInv]

/-- Settles O40: layer by layer the loops and their counter are the machine's transforms. -/
theorem transformsEqualInPlaceLoops : Obligations.TransformsEqualInPlaceLoops :=
  ⟨fun f => ⟨(nttKLoop_eq f).symm, (inttKLoop_eq f).symm, (nttDLoop_eq f).symm, (inttDLoop_eq f).symm⟩,
    by decide, by decide⟩

end Sys2Proof.Reference
end

section
/-! Coefficients modulo q: the word operations of the ring are those of `ZMod q`. -/

namespace Sys2Proof.Machine

variable {q : Nat}

/-- Coefficient i modulo q. -/
def coefZ (q : Nat) (f : PolyReg) (i : Nat) : ZMod q := (coef f i).toNat

theorem coefZ_of_le (f : PolyReg) {i : Nat} (hi : 256 ≤ i) : coefZ q f i = 0 := by
  rw [coefZ, coef_of_le f i hi]
  exact Nat.cast_zero

/-- An integer reduced mod q fits a word (R9, R10). -/
theorem toNat_ofInt_emod (hq : 0 < q) (hfit : q ≤ 2 ^ 32) (x : Int) :
    ((BitVec.ofInt 32 (x % q)).toNat : Int) = x % q := by
  have hnonneg : 0 ≤ x % q := Int.emod_nonneg x (by omega)
  have hlt : x % q < q := Int.emod_lt_of_pos x (by omega)
  obtain ⟨n, hn⟩ := Int.eq_ofNat_of_zero_le hnonneg
  rw [hn, BitVec.ofInt_natCast, BitVec.toNat_ofNat, Nat.mod_eq_of_lt (by omega)]

theorem natCast_toNat_ofInt_emod (hq : 0 < q) (hfit : q ≤ 2 ^ 32) (x : Int) :
    ((BitVec.ofInt 32 (x % q)).toNat : ZMod q) = x := by
  rw [← Int.cast_natCast, toNat_ofInt_emod hq hfit, ZMod.intCast_mod]

theorem natCast_addMod (hq : 0 < q) (hfit : q ≤ 2 ^ 32) (a b : Word) :
    ((addMod q a b).toNat : ZMod q) = a.toNat + b.toNat := by
  rw [toNat_addMod hq hfit, ZMod.natCast_mod, Nat.cast_add]

theorem natCast_subMod (hq : 0 < q) (hfit : q ≤ 2 ^ 32) (a b : Word) :
    ((subMod q a b).toNat : ZMod q) = a.toNat - b.toNat := by
  rw [subMod, natCast_toNat_ofInt_emod hq hfit, Int.cast_sub, Int.cast_natCast, Int.cast_natCast]

theorem natCast_mulMod (hq : 0 < q) (hfit : q ≤ 2 ^ 32) (z : Nat) (a : Word) :
    ((mulMod q z a).toNat : ZMod q) = z * a.toNat := by
  rw [toNat_mulMod hq hfit, ZMod.natCast_mod, Nat.cast_mul]

/-- A number below q is known from its residue. -/
theorem eq_mod_of_natCast_eq {x y : Nat} (hx : x < q) (h : (x : ZMod q) = y) : x = y % q := by
  have := (ZMod.natCast_eq_natCast_iff' x y q).1 h
  rwa [Nat.mod_eq_of_lt hx] at this

/-- Canonical polynomials (R231) are known from their coefficients modulo q. -/
theorem poly_eq_of_coefZ_eq {f g : PolyReg} (hf : canon f q = true) (hg : canon g q = true)
    (h : ∀ i < 256, coefZ q f i = coefZ q g i) : f = g :=
  poly_ext fun i hi => BitVec.eq_of_toNat_eq <| by
    rw [eq_mod_of_natCast_eq ((canon_iff f q).1 hf i hi) (h i hi), Nat.mod_eq_of_lt ((canon_iff g q).1 hg i hi)]

/-- Equality up to a factor is a matter of the 256 coefficients. -/
theorem coefZ_eq_smul {c : ZMod q} {f g : PolyReg} (h : ∀ i < 256, coefZ q f i = c * coefZ q g i) :
    coefZ q f = c • coefZ q g := funext fun i => by
  by_cases hi : i < 256
  · exact h i hi
  · rw [coefZ_of_le _ (by omega), Pi.smul_apply, coefZ_of_le _ (by omega), smul_zero]

theorem coefZ_scalePoly (hq : 0 < q) (hfit : q ≤ 2 ^ 32) (c : Nat) (f : PolyReg) :
    coefZ q (scalePoly q c f) = (c : ZMod q) • coefZ q f := coefZ_eq_smul fun i hi => by
  rw [coefZ, scalePoly, coef_mkPoly, if_pos hi, natCast_mulMod hq hfit, coefZ]

end Sys2Proof.Machine
end

section
/-! The butterflies modulo q are linear, and the two kinds undo each other up to the factor 2. -/

namespace Sys2Proof.Machine

section
variable {R : Type} [CommRing R]

/-- The Cooley-Tukey butterfly with factor z. -/
def ctPair (z : R) : R × R →ₗ[R] R × R where
  toFun p := (p.1 + z * p.2, p.1 - z * p.2)
  map_add' p p' := Prod.ext (by simp; ring) (by simp; ring)
  map_smul' c p := Prod.ext (by simp; ring) (by simp; ring)

/-- The Gentleman-Sande butterfly with factor z. -/
def gsPair (z : R) : R × R →ₗ[R] R × R where
  toFun p := (p.1 + p.2, z * (p.2 - p.1))
  map_add' p p' := Prod.ext (by simp; ring) (by simp; ring)
  map_smul' c p := Prod.ext (by simp; ring) (by simp; ring)

theorem ctPair_apply (z : R) (p : R × R) : ctPair z p = (p.1 + z * p.2, p.1 - z * p.2) := rfl

theorem gsPair_apply (z : R) (p : R × R) : gsPair z p = (p.1 + p.2, z * (p.2 - p.1)) := rfl

theorem gsPair_ctPair {z z' : R} (h : z * z' = -1) (p : R × R) : gsPair z' (ctPair z p) = (2 : R) • p := by
  rw [ctPair_apply, gsPair_apply]
  refine Prod.ext ?_ ?_
  · simp only [Prod.smul_fst, smul_eq_mul]
    ring
  · simp only [Prod.smul_snd, smul_eq_mul]
    linear_combination (-2 * p.2) * h

theorem ctPair_gsPair {z z' : R} (h : z * z' = -1) (p : R × R) : ctPair z (gsPair z' p) = (2 : R) • p := by
  rw [gsPair_apply, ctPair_apply]
  refine Prod.ext ?_ ?_
  · simp only [Prod.smul_fst, smul_eq_mul]
    linear_combination (p.2 - p.1) * h
  · simp only [Prod.smul_snd, smul_eq_mul]
    linear_combination (p.1 - p.2) * h

variable (w w' : Nat → R × R →ₗ[R] R × R) {len : Nat} (a : Nat → R)

theorem butterflies_smul (c : R) :
    butterflies (fun b => w b) len (c • a) = c • butterflies (fun b => w b) len a := funext fun j => by
  have hpair (b i k : Nat) : w b ((c • a) i, (c • a) k) = c • w b (a i, a k) := map_smul (w b) c (a i, a k)
  rw [Pi.smul_apply, butterflies, butterflies, hpair, hpair]
  split <;> rfl

/-- Two layers of the same length one after another, in a block where their butterflies make up a factor. -/
theorem butterflies_butterflies_block (hlen : 0 < len) {N j : Nat} {c : R}
    (h : ∀ b < N, ∀ p, w' b (w b p) = c • p) (hj : j < 2 * len * N) :
    butterflies (fun b => w' b) len (butterflies (fun b => w b) len a) j = c * a j := by
  obtain ⟨b, r, hr, hindex⟩ := exists_block_index hlen j
  have hb : b < N := Nat.lt_of_mul_lt_mul_left (a := 2 * len) (by omega)
  rcases hindex with rfl | rfl
  · rw [butterflies_low _ _ b hr, butterflies_low _ _ b hr, butterflies_high _ _ b hr, Prod.mk.eta, h b hb]
    rfl
  · rw [butterflies_high _ _ b hr, butterflies_low _ _ b hr, butterflies_high _ _ b hr, Prod.mk.eta, h b hb]
    rfl

/-- A layer leaves the zeros after its blocks. -/
theorem butterflies_eq_zero (hlen : 0 < len) {N j : Nat} (ha : ∀ i, 2 * len * N ≤ i → a i = 0) (hj : 2 * len * N ≤ j) :
    butterflies (fun b => w b) len a j = 0 := by
  obtain ⟨b, r, hr, hindex⟩ := exists_block_index hlen j
  have hb : N ≤ b := Nat.le_of_lt_succ (Nat.lt_of_mul_lt_mul_left (a := 2 * len) (by rw [Nat.mul_succ]; omega))
  have hstart : 2 * len * N ≤ 2 * len * b := Nat.mul_le_mul_left _ hb
  have hzero : w b (a (2 * len * b + r), a (2 * len * b + r + len)) = 0 := by
    rw [ha _ (by omega), ha _ (by omega), ← Prod.zero_eq_mk, map_zero]
  rcases hindex with rfl | rfl
  · rw [butterflies_low _ _ b hr, hzero, Prod.fst_zero]
  · rw [butterflies_high _ _ b hr, hzero, Prod.snd_zero]

end

variable {q : Nat}

/-- A pair of words modulo q. -/
def pairZ (q : Nat) (p : Word × Word) : ZMod q × ZMod q := (p.1.toNat, p.2.toNat)

/-- A layer of word butterflies is the layer of the linear butterflies that they are modulo q. -/
theorem coefZ_mkPoly_butterflies {w : Nat → Word × Word → Word × Word}
    {w' : Nat → ZMod q × ZMod q →ₗ[ZMod q] ZMod q × ZMod q}
    (hw : ∀ b p, pairZ q (w b p) = w' b (pairZ q p)) {len N : Nat} (hlen : 2 * len * N = 256) (f : PolyReg) :
    coefZ q (mkPoly (butterflies w len (coef f))) = butterflies (fun b => w' b) len (coefZ q f) := funext fun j => by
  by_cases hj : j < 256
  · rw [coefZ, coef_mkPoly, if_pos hj]
    unfold butterflies
    split
    · exact congrArg Prod.fst (hw _ (coef f j, coef f (j + len)))
    · exact congrArg Prod.snd (hw _ (coef f (j - len), coef f j))
  · have hpos : 0 < len := Nat.pos_of_ne_zero fun h => by simp [h] at hlen
    rw [coefZ_of_le _ (by omega), butterflies_eq_zero w' (coefZ q f) hpos (N := N) _ (by omega)]
    exact fun i hi => coefZ_of_le f (by omega)

theorem pairZ_ctWords (hq : 0 < q) (hfit : q ≤ 2 ^ 32) (z : Nat) (p : Word × Word) :
    pairZ q (ctWords q z p) = ctPair (z : ZMod q) (pairZ q p) := by
  simp only [pairZ, ctWords, natCast_addMod hq hfit, natCast_subMod hq hfit, natCast_mulMod hq hfit, ctPair_apply]

end Sys2Proof.Machine
end

section
/-! Bit reversal (R231) as arithmetic: the top bit comes out last, and complementing the bits below the top one
complements the reversed number. -/

namespace Sys2Proof.Machine

/-- The last of `bits + 1` bits comes out as the lowest. -/
theorem bitRev_succ_eq (bits k : Nat) : bitRev (bits + 1) k = 2 * bitRev bits k + k / 2 ^ bits % 2 := by
  induction bits generalizing k with
  | zero => simp [bitRev]
  | succ n ih =>
    rw [bitRev, ih, bitRev, Nat.div_div_eq_div_mul, ← Nat.pow_succ', Nat.pow_succ]
    ring

/-- Bits above the reversed ones do not matter. -/
theorem bitRev_two_pow_add (bits k : Nat) : bitRev bits (2 ^ bits + k) = bitRev bits k := by
  induction bits generalizing k with
  | zero => rfl
  | succ n ih =>
    have hmod : (2 ^ (n + 1) + k) % 2 = k % 2 := by omega
    have hdiv : (2 ^ (n + 1) + k) / 2 = 2 ^ n + k / 2 := by omega
    rw [bitRev, bitRev, hmod, hdiv, ih]

theorem bitRev_zero (bits : Nat) : bitRev bits 0 = 0 := by
  induction bits with
  | zero => rfl
  | succ n ih => rw [bitRev, ih, Nat.zero_mod, Nat.zero_mul]

/-- The two ends of a layer's zeta numbers, 2^t to 2·2^t - 1, pair up to exponents with the sum 2^bits. -/
theorem bitRev_add_bitRev_mirror {bits t b : Nat} (ht : t < bits) (hb : b < 2 ^ t) :
    bitRev bits (2 ^ t + b) + bitRev bits (2 * 2 ^ t - 1 - b) = 2 ^ bits := by
  induction t generalizing bits b with
  | zero =>
    obtain ⟨n, rfl⟩ : ∃ n, bits = n + 1 := ⟨bits - 1, by omega⟩
    obtain rfl : b = 0 := by omega
    have hone : bitRev (n + 1) 1 = 2 ^ n := by rw [bitRev, bitRev_zero, Nat.one_mod, Nat.one_mul, Nat.add_zero]
    exact (congrArg₂ _ hone hone).trans (Nat.two_pow_succ n).symm
  | succ t ih =>
    obtain ⟨n, rfl⟩ : ∃ n, bits = n + 1 := ⟨bits - 1, by omega⟩
    rw [Nat.pow_succ] at hb ⊢
    have hlow : (2 ^ t * 2 + b) % 2 = b % 2 := by omega
    have hlow' : (2 * (2 ^ t * 2) - 1 - b) % 2 = 1 - b % 2 := by omega
    have hhalf : (2 ^ t * 2 + b) / 2 = 2 ^ t + b / 2 := by omega
    have hhalf' : (2 * (2 ^ t * 2) - 1 - b) / 2 = 2 * 2 ^ t - 1 - b / 2 := by omega
    have hrest := ih (bits := n) (b := b / 2) (by omega) (by omega)
    rw [bitRev, bitRev, hlow, hlow', hhalf, hhalf', Nat.pow_succ]
    rcases Nat.mod_two_eq_zero_or_one b with h | h <;> rw [h] <;> omega

end Sys2Proof.Machine
end

section
/-! The parameters of a ring (R231) in one form for both: the root, how many bits of a zeta number are reversed, the
lengths of the layers, and the layers themselves. -/

namespace Sys2Proof.Machine

/-- The root of R231. -/
def ringRoot : Ring → Nat
  | .kyber => 17
  | .dilithium => 1753

/-- How many bits of a zeta number are reversed (R232, R234). -/
def ringBits : Ring → Nat
  | .kyber => 7
  | .dilithium => 8

/-- The lengths of the forward layers in order (R235, R237). -/
def ringLens : Ring → List Nat
  | .kyber => [128, 64, 32, 16, 8, 4, 2]
  | .dilithium => [128, 64, 32, 16, 8, 4, 2, 1]

/-- Zeta number k (R232, R234). -/
def ringZeta : Ring → Nat → Nat
  | .kyber => zetaKyber
  | .dilithium => zetaDilithium

/-- A forward layer (R235, R237). -/
def forwardLayer (rg : Ring) : PolyReg → Nat → PolyReg := ctLayer (ringQ rg) (ringZeta rg)

/-- The butterfly of an inverse transform: Dilithium's takes the negated zeta (R236, R238). -/
def gsWords : Ring → Nat → Word × Word → Word × Word
  | .kyber, z => gsWordsK z
  | .dilithium, z => gsWordsD ((qDilithium - z) % qDilithium)

/-- An inverse layer (R236, R238). -/
def inverseLayer : Ring → PolyReg → Nat → PolyReg
  | .kyber => gsLayerK
  | .dilithium => gsLayerD

/-- Zeta number k modulo q. -/
def zetaZ (rg : Ring) (k : Nat) : ZMod (ringQ rg) := (ringRoot rg : ZMod (ringQ rg)) ^ bitRev (ringBits rg) k

theorem nttRing_eq (rg : Ring) (f : PolyReg) : nttRing rg f = (ringLens rg).foldl (forwardLayer rg) f := by
  cases rg <;> rfl

theorem inttRing_eq (rg : Ring) (f : PolyReg) :
    inttRing rg f = scalePoly (ringQ rg) (nInv rg) ((ringLens rg).reverse.foldl (inverseLayer rg) f) := by
  cases rg <;> rfl

theorem inverseLayer_eq (rg : Ring) (f : PolyReg) (len : Nat) : inverseLayer rg f len =
    mkPoly (butterflies (fun b => gsWords rg (ringZeta rg (2 * (128 / len) - 1 - b))) len (coef f)) := by
  cases rg <;> rfl

/-- The lengths are powers of 2; 128 divided by a length numbers the layer's first zeta. -/
theorem exists_level_of_mem_ringLens (rg : Ring) : ∀ len ∈ ringLens rg, ∃ t < ringBits rg, 128 / len = 2 ^ t := by
  cases rg <;> decide

theorem block_count_of_mem_ringLens (rg : Ring) : ∀ len ∈ ringLens rg, 2 * len * (128 / len) = 256 := by
  cases rg <;> decide

theorem ringZeta_eq (rg : Ring) (k : Nat) : ringZeta rg k = ringRoot rg ^ bitRev (ringBits rg) k % ringQ rg := by
  cases rg <;> rfl

theorem ringZeta_le (rg : Ring) (k : Nat) : ringZeta rg k ≤ ringQ rg :=
  (ringZeta_eq rg k).trans_le (Nat.mod_lt _ (ringQ_pos rg)).le

theorem natCast_ringZeta (rg : Ring) (k : Nat) : (ringZeta rg k : ZMod (ringQ rg)) = zetaZ rg k := by
  rw [ringZeta_eq, ZMod.natCast_mod, Nat.cast_pow, zetaZ]

/-- R231: the root's power 2^bits is -1, so its order is 2^(bits + 1). -/
theorem ringRoot_pow (rg : Ring) : (ringRoot rg : ZMod (ringQ rg)) ^ 2 ^ ringBits rg = -1 := by
  have hcomputed : (ringRoot rg ^ 2 ^ ringBits rg + 1) % ringQ rg = 0 := by cases rg <;> decide
  rw [eq_neg_iff_add_eq_zero]
  exact_mod_cast (ZMod.natCast_eq_zero_iff _ _).2 (Nat.dvd_of_mod_eq_zero hcomputed)

/-- R231: the constant of the last scaling makes up for the factor 2 of every layer. -/
theorem nInv_mul_two_pow (rg : Ring) : (nInv rg : ZMod (ringQ rg)) * 2 ^ (ringLens rg).length = 1 := by
  have hcomputed : nInv rg * 2 ^ (ringLens rg).length % ringQ rg = 1 % ringQ rg := by cases rg <;> decide
  exact_mod_cast (ZMod.natCast_eq_natCast_iff' _ _ _).2 hcomputed

/-- The zetas of one block in a layer and in the inverse layer (R236, R238). -/
theorem zetaZ_mul_zetaZ_mirror {rg : Ring} {len b : Nat} (hlen : len ∈ ringLens rg) (hb : b < 128 / len) :
    zetaZ rg (128 / len + b) * zetaZ rg (2 * (128 / len) - 1 - b) = -1 := by
  obtain ⟨t, ht, hdiv⟩ := exists_level_of_mem_ringLens rg len hlen
  rw [hdiv] at hb ⊢
  rw [zetaZ, zetaZ, ← pow_add, bitRev_add_bitRev_mirror ht hb, ringRoot_pow]

theorem pairZ_gsWords (rg : Ring) {z : Nat} (hz : z ≤ ringQ rg) (p : Word × Word) :
    pairZ (ringQ rg) (gsWords rg z p) = gsPair (z : ZMod (ringQ rg)) (pairZ (ringQ rg) p) := by
  have hq := ringQ_pos rg
  have hfit := ringQ_le_word rg
  cases rg with
  | kyber =>
    have hwords : gsWords .kyber z p =
        (addMod (ringQ .kyber) p.1 p.2, mulMod (ringQ .kyber) z (subMod (ringQ .kyber) p.2 p.1)) := rfl
    simp only [hwords, pairZ, natCast_addMod hq hfit, natCast_subMod hq hfit, natCast_mulMod hq hfit, gsPair_apply]
  | dilithium =>
    have hwords : gsWords .dilithium z p = (addMod (ringQ .dilithium) p.1 p.2,
        mulMod (ringQ .dilithium) ((ringQ .dilithium - z) % ringQ .dilithium)
          (subMod (ringQ .dilithium) p.1 p.2)) := rfl
    simp only [hwords, pairZ, natCast_addMod hq hfit, natCast_subMod hq hfit, natCast_mulMod hq hfit, gsPair_apply,
      ZMod.natCast_mod, Nat.cast_sub hz, ZMod.natCast_self]
    exact Prod.ext rfl (by ring)

/-- A forward layer modulo q. -/
theorem coefZ_forwardLayer {rg : Ring} (f : PolyReg) {len : Nat} (hlen : len ∈ ringLens rg) :
    coefZ (ringQ rg) (forwardLayer rg f len) =
      butterflies (fun b => ctPair (zetaZ rg (128 / len + b))) len (coefZ (ringQ rg) f) := by
  rw [forwardLayer, ctLayer_eq]
  refine coefZ_mkPoly_butterflies (fun b p => ?_) (block_count_of_mem_ringLens rg len hlen) f
  rw [pairZ_ctWords (ringQ_pos rg) (ringQ_le_word rg), natCast_ringZeta]

/-- An inverse layer modulo q. -/
theorem coefZ_inverseLayer {rg : Ring} (f : PolyReg) {len : Nat} (hlen : len ∈ ringLens rg) :
    coefZ (ringQ rg) (inverseLayer rg f len) =
      butterflies (fun b => gsPair (zetaZ rg (2 * (128 / len) - 1 - b))) len (coefZ (ringQ rg) f) := by
  rw [inverseLayer_eq]
  refine coefZ_mkPoly_butterflies (fun b p => ?_) (block_count_of_mem_ringLens rg len hlen) f
  rw [pairZ_gsWords rg (ringZeta_le rg _), natCast_ringZeta]

end Sys2Proof.Machine
end

section
/-! The transforms are inverse to each other (R247, law 1): layer by layer up to the factor 2, and in reverse order. -/

namespace Sys2Proof.Machine

variable {rg : Ring}

section
variable {len : Nat} (hlen : len ∈ ringLens rg)
include hlen

theorem pos_of_mem_ringLens : 0 < len :=
  Nat.pos_of_ne_zero fun h => by simpa [h] using block_count_of_mem_ringLens rg len hlen

theorem coefZ_inverseLayer_forwardLayer (f : PolyReg) :
    coefZ (ringQ rg) (inverseLayer rg (forwardLayer rg f len) len) = (2 : ZMod (ringQ rg)) • coefZ (ringQ rg) f :=
  coefZ_eq_smul fun i hi => by
    rw [coefZ_inverseLayer _ hlen, coefZ_forwardLayer _ hlen]
    exact butterflies_butterflies_block _ _ _ (pos_of_mem_ringLens hlen)
      (fun b hb => gsPair_ctPair (zetaZ_mul_zetaZ_mirror hlen hb)) (block_count_of_mem_ringLens rg len hlen ▸ hi)

theorem coefZ_forwardLayer_inverseLayer (f : PolyReg) :
    coefZ (ringQ rg) (forwardLayer rg (inverseLayer rg f len) len) = (2 : ZMod (ringQ rg)) • coefZ (ringQ rg) f :=
  coefZ_eq_smul fun i hi => by
    rw [coefZ_forwardLayer _ hlen, coefZ_inverseLayer _ hlen]
    exact butterflies_butterflies_block _ _ _ (pos_of_mem_ringLens hlen)
      (fun b hb => ctPair_gsPair (zetaZ_mul_zetaZ_mirror hlen hb)) (block_count_of_mem_ringLens rg len hlen ▸ hi)

theorem coefZ_inverseLayer_smul (c : ZMod (ringQ rg)) {f g : PolyReg}
    (h : coefZ (ringQ rg) f = c • coefZ (ringQ rg) g) :
    coefZ (ringQ rg) (inverseLayer rg f len) = c • coefZ (ringQ rg) (inverseLayer rg g len) := by
  rw [coefZ_inverseLayer _ hlen, coefZ_inverseLayer _ hlen, h, butterflies_smul]

theorem coefZ_forwardLayer_smul (c : ZMod (ringQ rg)) {f g : PolyReg}
    (h : coefZ (ringQ rg) f = c • coefZ (ringQ rg) g) :
    coefZ (ringQ rg) (forwardLayer rg f len) = c • coefZ (ringQ rg) (forwardLayer rg g len) := by
  rw [coefZ_forwardLayer _ hlen, coefZ_forwardLayer _ hlen, h, butterflies_smul]

end

/-- `G` undoes `F` up to the factor 2 at every length of the list, and carries factors along. -/
structure UndoesLayers (q : Nat) (lens : List Nat) (F G : PolyReg → Nat → PolyReg) : Prop where
  undo : ∀ len ∈ lens, ∀ f, coefZ q (G (F f len) len) = (2 : ZMod q) • coefZ q f
  smul : ∀ len ∈ lens, ∀ (c : ZMod q) {f g}, coefZ q f = c • coefZ q g → coefZ q (G f len) = c • coefZ q (G g len)

/-- Layers undone in reverse order leave a factor 2 for each. -/
theorem UndoesLayers.foldl {q : Nat} {lens : List Nat} {F G : PolyReg → Nat → PolyReg} (h : UndoesLayers q lens F G)
    (f : PolyReg) :
    coefZ q (lens.reverse.foldl G (lens.foldl F f)) = (2 ^ lens.length : ZMod q) • coefZ q f := by
  induction lens generalizing f with
  | nil => exact (by simp)
  | cons len lens ih =>
    have hrest : UndoesLayers q lens F G :=
      ⟨fun l hl => h.undo l (List.mem_cons_of_mem _ hl), fun l hl => h.smul l (List.mem_cons_of_mem _ hl)⟩
    rw [List.foldl_cons, List.reverse_cons, List.foldl_append, List.foldl_cons, List.foldl_nil,
      h.smul len List.mem_cons_self _ (ih hrest (F f len)), h.undo len List.mem_cons_self, smul_smul, List.length_cons,
      pow_succ]

theorem inverse_undoes_forward (rg : Ring) :
    UndoesLayers (ringQ rg) (ringLens rg) (forwardLayer rg) (inverseLayer rg) :=
  ⟨fun _ hlen => coefZ_inverseLayer_forwardLayer hlen, fun _ hlen => coefZ_inverseLayer_smul hlen⟩

theorem forward_undoes_inverse (rg : Ring) :
    UndoesLayers (ringQ rg) (ringLens rg).reverse (inverseLayer rg) (forwardLayer rg) :=
  ⟨fun _ hlen => coefZ_forwardLayer_inverseLayer (List.mem_reverse.1 hlen),
    fun _ hlen => coefZ_forwardLayer_smul (List.mem_reverse.1 hlen)⟩

theorem coefZ_inttRing (rg : Ring) (f : PolyReg) : coefZ (ringQ rg) (inttRing rg f) =
    (nInv rg : ZMod (ringQ rg)) • coefZ (ringQ rg) ((ringLens rg).reverse.foldl (inverseLayer rg) f) := by
  rw [inttRing_eq, coefZ_scalePoly (ringQ_pos rg) (ringQ_le_word rg)]

theorem coefZ_inttRing_nttRing (rg : Ring) (f : PolyReg) :
    coefZ (ringQ rg) (inttRing rg (nttRing rg f)) = coefZ (ringQ rg) f := by
  rw [coefZ_inttRing, nttRing_eq, (inverse_undoes_forward rg).foldl, smul_smul, nInv_mul_two_pow, one_smul]

/-- A factor goes through a forward transform. -/
theorem coefZ_nttRing_smul (c : ZMod (ringQ rg)) {f g : PolyReg} (h : coefZ (ringQ rg) f = c • coefZ (ringQ rg) g) :
    coefZ (ringQ rg) (nttRing rg f) = c • coefZ (ringQ rg) (nttRing rg g) := by
  rw [nttRing_eq, nttRing_eq]
  exact List.foldl_rel (r := fun f g => coefZ (ringQ rg) f = c • coefZ (ringQ rg) g) h
    fun len hlen f g h => coefZ_forwardLayer_smul hlen c h

theorem coefZ_nttRing_inttRing (rg : Ring) (f : PolyReg) :
    coefZ (ringQ rg) (nttRing rg (inttRing rg f)) = coefZ (ringQ rg) f := by
  have hundo := (forward_undoes_inverse rg).foldl f
  rw [List.reverse_reverse, List.length_reverse] at hundo
  rw [coefZ_nttRing_smul _ (coefZ_inttRing rg f), nttRing_eq, hundo, smul_smul, nInv_mul_two_pow, one_smul]

theorem inttRing_nttRing {f : PolyReg} (hf : canon f (ringQ rg) = true) : inttRing rg (nttRing rg f) = f :=
  poly_eq_of_coefZ_eq (canon_inttRing rg _) hf fun i _ => congrFun (coefZ_inttRing_nttRing rg f) i

theorem nttRing_inttRing {f : PolyReg} (hf : canon f (ringQ rg) = true) : nttRing rg (inttRing rg f) = f :=
  poly_eq_of_coefZ_eq (canon_nttRing rg _) hf fun i _ => congrFun (coefZ_nttRing_inttRing rg f) i

/-- Settles O39: modulo q the layers cancel up to the factor 2, the last scaling takes the factors away, and canonical
polynomials are known modulo q. -/
theorem transformsRoundTrip : Obligations.TransformsRoundTrip := fun rg f hf =>
  have hcanon := (canon_iff f (ringQ rg)).2 hf
  ⟨inttRing_nttRing hcanon, nttRing_inttRing hcanon⟩

end Sys2Proof.Machine
end

section
/-! The forward transform as reduction of f (R247, laws 3 and 4): the layers take f modulo X^256 + 1 apart into residues
modulo X^n - γ for ever smaller n. The blocks are the nodes of a binary tree: node 1 is the whole polynomial, node k has
the children 2k and 2k + 1, block b of a layer's result with blocks of n coefficients is node 256 / n + b. -/

namespace Sys2Proof.Machine

variable {rg : Ring}

/-- The γ of a node: its two children's are the square roots of it. -/
def nodeRoot (rg : Ring) (k : Nat) : ZMod (ringQ rg) := (ringRoot rg : ZMod (ringQ rg)) ^ bitRev (ringBits rg + 1) k

theorem nodeRoot_two_mul (k : Nat) : nodeRoot rg (2 * k) = zetaZ rg k := by
  rw [nodeRoot, bitRev, Nat.mul_mod_right, Nat.mul_div_cancel_left k two_pos, Nat.zero_mul, Nat.zero_add, zetaZ]

theorem nodeRoot_two_mul_add_one (k : Nat) : nodeRoot rg (2 * k + 1) = -zetaZ rg k := by
  have hmod : (2 * k + 1) % 2 = 1 := by omega
  have hdiv : (2 * k + 1) / 2 = k := by omega
  rw [nodeRoot, bitRev, hmod, hdiv, Nat.one_mul, pow_add, ringRoot_pow, neg_one_mul, zetaZ]

/-- An inner node's γ is the square of its zeta. -/
theorem zetaZ_sq {k : Nat} (hk : k < 2 ^ ringBits rg) : zetaZ rg k ^ 2 = nodeRoot rg k := by
  rw [zetaZ, nodeRoot, bitRev_succ_eq, Nat.div_eq_of_lt hk, Nat.zero_mod, Nat.add_zero, ← pow_mul, Nat.mul_comm]

/-- A leaf's γ (R233; R247, law 4). -/
theorem nodeRoot_leaf {i : Nat} (hi : i < 2 ^ ringBits rg) :
    nodeRoot rg (2 ^ ringBits rg + i) = (ringRoot rg : ZMod (ringQ rg)) ^ (2 * bitRev (ringBits rg) i + 1) := by
  have hdiv : (2 ^ ringBits rg + i) / 2 ^ ringBits rg = 1 := by
    rw [Nat.add_div_left _ (Nat.two_pow_pos _), Nat.div_eq_of_lt hi]
  rw [nodeRoot, bitRev_succ_eq, bitRev_two_pow_add, hdiv]

/-- A leaf's γ raised to the number of leaves is -1, the γ of the whole polynomial. -/
theorem nodeRoot_leaf_pow {i : Nat} (hi : i < 2 ^ ringBits rg) :
    nodeRoot rg (2 ^ ringBits rg + i) ^ 2 ^ ringBits rg = -1 := by
  rw [nodeRoot_leaf hi, ← pow_mul, Nat.mul_comm, pow_mul, ringRoot_pow, (odd_two_mul_add_one _).neg_one_pow]

/-- Coefficient r of f modulo X^n - γ, with `count` terms of f. -/
def residueZ {q : Nat} (f : PolyReg) (n count : Nat) (γ : ZMod q) (r : Nat) : ZMod q :=
  ∑ m ∈ Finset.range count, coefZ q f (n * m + r) * γ ^ m

theorem sum_range_two_mul {M : Type} [AddCommMonoid M] (g : Nat → M) (n : Nat) :
    ∑ m ∈ Finset.range (2 * n), g m = ∑ m ∈ Finset.range n, (g (2 * m) + g (2 * m + 1)) := by
  induction n with
  | zero => rfl
  | succ n ih => rw [Nat.mul_succ, Finset.sum_range_succ, Finset.sum_range_succ, ih, Finset.sum_range_succ, add_assoc]

/-- Reducing from X^(2n) - z² to X^n - z: the Cooley-Tukey butterfly. -/
theorem residueZ_split {q : Nat} (f : PolyReg) (n count : Nat) (z : ZMod q) (r : Nat) :
    residueZ f n (2 * count) z r =
      residueZ f (2 * n) count (z ^ 2) r + z * residueZ f (2 * n) count (z ^ 2) (r + n) := by
  rw [residueZ, residueZ, residueZ, sum_range_two_mul, Finset.mul_sum, ← Finset.sum_add_distrib]
  refine Finset.sum_congr rfl fun m _ => ?_
  have heven : n * (2 * m) + r = 2 * n * m + r := by ring
  have hodd : n * (2 * m + 1) + r = 2 * n * m + (r + n) := by ring
  rw [heven, hodd, pow_succ, ← pow_mul]
  ring

/-- Block b of `a`, for blocks of n coefficients, holds f modulo X^n minus the γ of its node. -/
def HoldsResidues (rg : Ring) (f : PolyReg) (n : Nat) (a : PolyReg) : Prop :=
  ∀ b < 256 / n, ∀ r < n, coefZ (ringQ rg) a (n * b + r) = residueZ f n (256 / n) (nodeRoot rg (256 / n + b)) r

theorem holdsResidues_self (rg : Ring) (f : PolyReg) : HoldsResidues rg f 256 f := by
  intro b hb r _
  obtain rfl : b = 0 := by omega
  simp [residueZ]

/-- The zeta of a block is a square root of its node's γ. -/
theorem zetaZ_sq_of_block {len b : Nat} (hlen : len ∈ ringLens rg) (hb : b < 128 / len) :
    zetaZ rg (128 / len + b) ^ 2 = nodeRoot rg (128 / len + b) := by
  obtain ⟨t, ht, hdiv⟩ := exists_level_of_mem_ringLens rg len hlen
  have hpow : 2 ^ (t + 1) ≤ 2 ^ ringBits rg := Nat.pow_le_pow_right two_pos ht
  exact zetaZ_sq (by rw [hdiv] at hb ⊢; omega)

/-- One layer halves the blocks. -/
theorem HoldsResidues.layer {f a : PolyReg} {len : Nat} (h : HoldsResidues rg f (2 * len) a)
    (hlen : len ∈ ringLens rg) :
    HoldsResidues rg f len (forwardLayer rg a len) := by
  have hblocks : 256 / len = 2 * (128 / len) :=
    Nat.div_eq_of_eq_mul_left (pos_of_mem_ringLens hlen) (by rw [← block_count_of_mem_ringLens rg len hlen]; ring)
  have hwide : 256 / (2 * len) = 128 / len := (Nat.div_div_eq_div_mul 256 2 len).symm
  rw [HoldsResidues, hwide] at h
  intro c hc r hr
  rw [hblocks] at hc ⊢
  obtain ⟨b, rfl | rfl⟩ := Nat.even_or_odd' c
  all_goals
    have hb : b < 128 / len := by omega
    have hlow := h b hb r (by omega)
    have hhigh := h b hb (r + len) (by omega)
    rw [← zetaZ_sq_of_block hlen hb] at hlow hhigh
    rw [← Nat.add_assoc] at hhigh
  · have hindex : len * (2 * b) + r = 2 * len * b + r := by ring
    rw [hindex, ← Nat.mul_add, nodeRoot_two_mul, coefZ_forwardLayer a hlen, butterflies_low _ _ b hr, ctPair_apply,
      hlow, hhigh, residueZ_split]
  · have hindex : len * (2 * b + 1) + r = 2 * len * b + r + len := by ring
    rw [hindex, ← Nat.add_assoc, ← Nat.mul_add, nodeRoot_two_mul_add_one, coefZ_forwardLayer a hlen,
      butterflies_high _ _ b hr, ctPair_apply, hlow, hhigh, residueZ_split, neg_sq, neg_mul, sub_eq_add_neg]

/-- Layers of halving lengths, one after another. -/
theorem HoldsResidues.foldl {f a : PolyReg} {n : Nat} {lens : List Nat} (h : HoldsResidues rg f n a)
    (hmem : ∀ len ∈ lens, len ∈ ringLens rg) (hchain : List.IsChain (fun m len => m = 2 * len) (n :: lens)) :
    HoldsResidues rg f (lens.getLastD n) (lens.foldl (forwardLayer rg) a) := by
  induction lens generalizing n a with
  | nil => exact h
  | cons len lens ih =>
    obtain ⟨rfl, hrest⟩ := List.isChain_cons_cons.1 hchain
    rw [List.getLastD_cons]
    exact ih (h.layer (hmem len List.mem_cons_self)) (fun l hl => hmem l (List.mem_cons_of_mem _ hl)) hrest

/-- What a forward transform leaves: residues modulo X^n - γ with n the length of the last layer. -/
theorem holdsResidues_nttRing (rg : Ring) (f : PolyReg) :
    HoldsResidues rg f ((ringLens rg).getLastD 256) (nttRing rg f) := by
  rw [nttRing_eq]
  exact (holdsResidues_self rg f).foldl (fun _ h => h) (by cases rg <;> decide)

/-- Pair i of the Kyber transform (R247, law 3). -/
theorem coefZ_nttK (f : PolyReg) {i r : Nat} (hi : i < 128) (hr : r < 2) :
    coefZ (ringQ .kyber) (nttK f) (2 * i + r) = residueZ f 2 128 (nodeRoot .kyber (128 + i)) r :=
  holdsResidues_nttRing .kyber f i hi r hr

/-- Coefficient i of the Dilithium transform (R247, law 4). -/
theorem coefZ_nttD (f : PolyReg) {i : Nat} (hi : i < 256) :
    coefZ (ringQ .dilithium) (nttD f) i = residueZ f 1 256 (nodeRoot .dilithium (256 + i)) 0 := by
  have hleaf : HoldsResidues .dilithium f 1 (nttD f) := holdsResidues_nttRing .dilithium f
  have hi0 := hleaf i hi 0 one_pos
  rw [Nat.one_mul] at hi0
  exact hi0

/-- A sum of numbers, reduced mod q. -/
theorem natCast_sum_range {q : Nat} (g : Nat → Nat) (n : Nat) :
    ((((List.range n).map g).sum % q : Nat) : ZMod q) = ∑ m ∈ Finset.range n, (g m : ZMod q) := by
  rw [ZMod.natCast_mod, Nat.cast_list_sum, List.map_map]
  rfl

/-- GK[i] is the γ of leaf i. -/
theorem natCast_gammaKyber {i : Nat} (hi : i < 128) :
    (gammaKyber i : ZMod (ringQ .kyber)) = nodeRoot .kyber (128 + i) := by
  rw [gammaKyber]
  exact (ZMod.natCast_mod _ _).trans ((Nat.cast_pow _ _).trans (nodeRoot_leaf (rg := .kyber) hi).symm)

theorem natCast_residueAt (f : PolyReg) {i r : Nat} (hi : i < 128) :
    (Reference.residueAt (ringQ .kyber) f (gammaKyber i) r : ZMod (ringQ .kyber)) =
      residueZ f 2 128 (nodeRoot .kyber (128 + i)) r := by
  rw [Reference.residueAt, natCast_sum_range, residueZ]
  exact Finset.sum_congr rfl fun m _ => by rw [Nat.cast_mul, Nat.cast_pow, natCast_gammaKyber hi, coefZ]

/-- Settles O42: both sides are below q and agree modulo q. -/
theorem nttKyberGivesResidues : Obligations.NttKyberGivesResidues := by
  intro f _ i hi
  have hpair (r : Nat) (hr : r < 2) :
      (coef (nttK f) (2 * i + r)).toNat = Reference.residueAt (ringQ .kyber) f (gammaKyber i) r := by
    have hlt := (canon_iff _ _).1 (canon_nttRing .kyber f) (2 * i + r) (by omega)
    exact (eq_mod_of_natCast_eq hlt ((coefZ_nttK f hi hr).trans (natCast_residueAt f hi).symm)).trans (Nat.mod_mod _ _)
  exact ⟨hpair 0 two_pos, hpair 1 one_lt_two⟩

theorem natCast_evalAt (f : PolyReg) {i : Nat} (hi : i < 256) :
    (Reference.evalAt (ringQ .dilithium) f (1753 ^ (2 * bitRev 8 i + 1)) : ZMod (ringQ .dilithium)) =
      residueZ f 1 256 (nodeRoot .dilithium (256 + i)) 0 := by
  have hroot : nodeRoot .dilithium (256 + i) = (1753 ^ (2 * bitRev 8 i + 1) : Nat) := by
    rw [Nat.cast_pow]
    exact nodeRoot_leaf (rg := .dilithium) hi
  rw [Reference.evalAt, natCast_sum_range, residueZ, hroot]
  exact Finset.sum_congr rfl fun m _ => by rw [Nat.cast_mul, Nat.cast_pow, Nat.one_mul, coefZ]; rfl

/-- Settles O41: both sides are below q and agree modulo q. -/
theorem nttDilithiumEvaluates : Obligations.NttDilithiumEvaluates := by
  intro f _ i hi
  have hlt := (canon_iff _ _).1 (canon_nttRing .dilithium f) i hi
  exact (eq_mod_of_natCast_eq hlt ((coefZ_nttD f hi).trans (natCast_evalAt f hi).symm)).trans (Nat.mod_mod _ _)

end Sys2Proof.Machine
end

section
/-! Negacyclic multiplication (R247, law 2) under evaluation: at a point whose 256th power is -1, in any algebra over
the coefficients, the value of the product is the product of the values. -/

namespace Sys2Proof.Machine

variable {R S : Type} [CommRing R] [CommRing S] [Algebra R S]

/-- The value at x of the polynomial with the coefficients a 0 to a 255. -/
def valueAt (a : Nat → R) (x : S) : S := ∑ i ∈ Finset.range 256, a i • x ^ i

/-- Coefficient k of X^i times b modulo X^256 + 1. -/
def rotated (b : Nat → R) (i k : Nat) : R := if i ≤ k then b (k - i) else -b (256 + k - i)

variable {x : S} (hx : x ^ 256 = -1) (a b : Nat → R)
include hx

/-- What is shifted beyond X^255 comes back negated. -/
theorem valueAt_rotated {i : Nat} (hi : i ≤ 256) : valueAt (rotated b i) x = x ^ i * valueAt b x := by
  obtain ⟨j, hj⟩ := Nat.exists_eq_add_of_le hi
  have hback : ∀ k ∈ Finset.range i, rotated b i k • x ^ k = x ^ i * (b (j + k) • x ^ (j + k)) := fun k hk => by
    have hlt := Finset.mem_range.1 hk
    have hindex : 256 + k - i = j + k := by omega
    rw [rotated, if_neg (by omega), hindex, mul_smul_comm, ← pow_add, ← Nat.add_assoc, ← hj, pow_add, hx, neg_one_mul,
      smul_neg, neg_smul]
  have hkept : ∀ k ∈ Finset.range j, rotated b i (i + k) • x ^ (i + k) = x ^ i * (b k • x ^ k) := fun k _ => by
    rw [rotated, if_pos (by omega), Nat.add_sub_cancel_left, mul_smul_comm, pow_add]
  calc valueAt (rotated b i) x
      = ∑ k ∈ Finset.range i, x ^ i * (b (j + k) • x ^ (j + k)) + ∑ k ∈ Finset.range j, x ^ i * (b k • x ^ k) := by
        rw [valueAt, hj, Finset.sum_range_add, Finset.sum_congr rfl hback, Finset.sum_congr rfl hkept]
    _ = x ^ i * valueAt b x := by
        rw [valueAt, hj, Nat.add_comm i j, Finset.sum_range_add, mul_add, Finset.mul_sum, Finset.mul_sum, add_comm]

/-- Law 2 of R247, evaluated. -/
theorem valueAt_negacyclic :
    valueAt (fun k => ∑ i ∈ Finset.range 256, a i * rotated b i k) x = valueAt a x * valueAt b x :=
  calc valueAt (fun k => ∑ i ∈ Finset.range 256, a i * rotated b i k) x
      = ∑ i ∈ Finset.range 256, a i • valueAt (rotated b i) x := by
        simp only [valueAt, Finset.sum_smul, Finset.smul_sum, mul_smul]
        exact Finset.sum_comm
    _ = ∑ i ∈ Finset.range 256, a i • x ^ i * valueAt b x := Finset.sum_congr rfl fun i hi => by
        rw [valueAt_rotated hx b (Finset.mem_range.1 hi).le, smul_mul_assoc]
    _ = valueAt a x * valueAt b x := (Finset.sum_mul _ _ _).symm

end Sys2Proof.Machine
end

section
/-! The coefficients of a transform as values of f: at the root itself for Dilithium, at the square root ω of γ that
Kyber adjoins. -/

namespace Sys2Proof.Machine

open QuadraticAlgebra

section
variable {R : Type} [CommRing R] (γ : R)

theorem omega_pow_two_mul (m : Nat) : (ω : QuadraticAlgebra R γ 0) ^ (2 * m) = ⟨γ ^ m, 0⟩ := by
  have hsq : (ω : QuadraticAlgebra R γ 0) ^ 2 = .C γ := by rw [pow_two, omega_mul_omega_eq_mk]; rfl
  rw [pow_mul, hsq, ← C_pow]
  rfl

theorem omega_pow_two_mul_add_one (m : Nat) : (ω : QuadraticAlgebra R γ 0) ^ (2 * m + 1) = ⟨0, γ ^ m⟩ := by
  rw [pow_succ', omega_pow_two_mul, omega_mul_mk]
  simp

theorem sum_quadraticAlgebra_mk (u v : Nat → R) (n : Nat) :
    ∑ m ∈ Finset.range n, (⟨u m, v m⟩ : QuadraticAlgebra R γ 0) =
      ⟨∑ m ∈ Finset.range n, u m, ∑ m ∈ Finset.range n, v m⟩ := by
  induction n with
  | zero => rfl
  | succ n ih => rw [Finset.sum_range_succ, ih, Finset.sum_range_succ, Finset.sum_range_succ]; rfl

end

variable {q : Nat} (f : PolyReg)

/-- f modulo X^2 - γ is the value of f at a square root of γ. -/
theorem valueAt_omega (γ : ZMod q) :
    valueAt (coefZ q f) (ω : QuadraticAlgebra (ZMod q) γ 0) = ⟨residueZ f 2 128 γ 0, residueZ f 2 128 γ 1⟩ := by
  rw [valueAt, sum_range_two_mul _ 128, residueZ, residueZ, ← sum_quadraticAlgebra_mk]
  refine Finset.sum_congr rfl fun m _ => ?_
  rw [omega_pow_two_mul, omega_pow_two_mul_add_one]
  ext <;> simp

theorem valueAt_self (x : ZMod q) : valueAt (coefZ q f) x = residueZ f 1 256 x 0 :=
  Finset.sum_congr rfl fun m _ => by rw [smul_eq_mul, Nat.one_mul, Nat.add_zero]

/-- Coefficient i of the Dilithium transform as a value. -/
theorem coefZ_nttD_eq_valueAt {i : Nat} (hi : i < 256) :
    coefZ (ringQ .dilithium) (nttD f) i = valueAt (coefZ (ringQ .dilithium) f) (nodeRoot .dilithium (256 + i)) := by
  rw [coefZ_nttD f hi, valueAt_self]

/-- Pair i as a number with ω. -/
def pairAt (f : PolyReg) (i : Nat) : QuadraticAlgebra (ZMod (ringQ .kyber)) (nodeRoot .kyber (128 + i)) 0 :=
  ⟨coefZ (ringQ .kyber) f (2 * i), coefZ (ringQ .kyber) f (2 * i + 1)⟩

/-- Pair i of the Kyber transform as a value. -/
theorem pairAt_nttK {i : Nat} (hi : i < 128) : pairAt (nttK f) i = valueAt (coefZ (ringQ .kyber) f) ω := by
  rw [valueAt_omega, ← coefZ_nttK f hi two_pos, ← coefZ_nttK f hi one_lt_two]
  rfl

theorem nodeRoot_dilithium_pow {i : Nat} (hi : i < 256) : nodeRoot .dilithium (256 + i) ^ 256 = -1 :=
  nodeRoot_leaf_pow (rg := .dilithium) hi

theorem omega_kyber_pow {i : Nat} (hi : i < 128) :
    (ω : QuadraticAlgebra (ZMod (ringQ .kyber)) (nodeRoot .kyber (128 + i)) 0) ^ 256 = -1 := by
  have hpow : nodeRoot .kyber (128 + i) ^ 128 = -1 := nodeRoot_leaf_pow (rg := .kyber) hi
  rw [omega_pow_two_mul _ 128, hpow]
  ext <;> simp

end Sys2Proof.Machine
end

section
/-! The product in Z_q[X]/(X^256 + 1) (R247, law 2): its transform is the product of the transforms. -/

namespace Sys2Proof.Machine

open Reference QuadraticAlgebra

variable (rg : Ring) (f g : PolyReg)

/-- The negacyclic product with canonical coefficients. -/
def negacyclicPoly (q : Nat) (f g : PolyReg) : PolyReg := mkPoly fun k => BitVec.ofInt 32 (negacyclic q f g k)

theorem toNat_coef_negacyclicPoly {k : Nat} (hk : k < 256) :
    ((coef (negacyclicPoly (ringQ rg) f g) k).toNat : Int) = negacyclic (ringQ rg) f g k := by
  rw [negacyclicPoly, coef_mkPoly, if_pos hk]
  exact toNat_ofInt_emod (ringQ_pos rg) (ringQ_le_word rg) _

theorem canon_negacyclicPoly : canon (negacyclicPoly (ringQ rg) f g) (ringQ rg) = true :=
  canon_mkPoly fun _ => toNat_ofInt_emod_lt (ringQ_pos rg) _

theorem intCast_sum_range {q : Nat} (u v : Nat → Nat) (n : Nat) :
    ((((List.range n).map fun i => (u i * v i : Int)).sum : Int) : ZMod q) =
      ∑ i ∈ Finset.range n, (u i : ZMod q) * (v i : ZMod q) := by
  have hterm : (Int.cast ∘ fun i => (u i * v i : Int)) = fun i => (u i : ZMod q) * (v i : ZMod q) :=
    funext fun i => by simp
  rw [Int.cast_list_sum, List.map_map, hterm]
  rfl

/-- The coefficients of the negacyclic product modulo q, as sums over f. -/
theorem coefZ_negacyclicPoly {k : Nat} (hk : k < 256) :
    coefZ (ringQ rg) (negacyclicPoly (ringQ rg) f g) k =
      ∑ i ∈ Finset.range 256, coefZ (ringQ rg) f i * rotated (coefZ (ringQ rg) g) i k := by
  have hsplit : 256 = (k + 1) + (255 - k) := by omega
  rw [coefZ, ← Int.cast_natCast, toNat_coef_negacyclicPoly rg f g hk, negacyclic, ZMod.intCast_mod, Int.cast_sub,
    intCast_sum_range, intCast_sum_range (fun m => (coef f (k + 1 + m)).toNat), hsplit,
    Finset.sum_range_add _ (k + 1) (255 - k), sub_eq_add_neg, ← Finset.sum_neg_distrib]
  congr 1 <;> refine Finset.sum_congr rfl fun m hm => ?_
  · rw [rotated, if_pos (by have := Finset.mem_range.1 hm; omega)]
    rfl
  · have hindex : 256 + k - (k + 1 + m) = 255 - m := by omega
    rw [rotated, if_neg (by omega), hindex, mul_neg]
    rfl

/-- The value of the negacyclic product. -/
theorem valueAt_negacyclicPoly {S : Type} [CommRing S] [Algebra (ZMod (ringQ rg)) S] {x : S} (hx : x ^ 256 = -1) :
    valueAt (coefZ (ringQ rg) (negacyclicPoly (ringQ rg) f g)) x =
      valueAt (coefZ (ringQ rg) f) x * valueAt (coefZ (ringQ rg) g) x := by
  rw [← valueAt_negacyclic hx]
  exact Finset.sum_congr rfl fun k hk => by rw [coefZ_negacyclicPoly rg f g (Finset.mem_range.1 hk)]

theorem coefZ_mulK_even {i : Nat} (hi : i < 128) : coefZ (ringQ .kyber) (mulK f g) (2 * i) =
    coefZ (ringQ .kyber) f (2 * i) * coefZ (ringQ .kyber) g (2 * i) +
      coefZ (ringQ .kyber) f (2 * i + 1) * coefZ (ringQ .kyber) g (2 * i + 1) * nodeRoot .kyber (128 + i) := by
  have hroot : nodeRoot .kyber (128 + i) = (17 ^ (2 * bitRev 7 i + 1) : Nat) :=
    (nodeRoot_leaf (rg := .kyber) hi).trans (Nat.cast_pow _ _).symm
  rw [coefZ, coef_mulK_even f g hi, hroot]
  refine (ZMod.natCast_mod _ _).trans ?_
  rw [Nat.cast_add, Nat.cast_mul, Nat.cast_mul, Nat.cast_mul]
  rfl

theorem coefZ_mulK_odd {i : Nat} (hi : i < 128) : coefZ (ringQ .kyber) (mulK f g) (2 * i + 1) =
    coefZ (ringQ .kyber) f (2 * i) * coefZ (ringQ .kyber) g (2 * i + 1) +
      coefZ (ringQ .kyber) f (2 * i + 1) * coefZ (ringQ .kyber) g (2 * i) := by
  rw [coefZ, coef_mulK_odd f g hi]
  refine (ZMod.natCast_mod _ _).trans ?_
  rw [Nat.cast_add, Nat.cast_mul, Nat.cast_mul]
  rfl

/-- The Kyber product of pairs (R239) is the product in the ring of ω. -/
theorem pairAt_mulK {i : Nat} (hi : i < 128) : pairAt (mulK f g) i = pairAt f i * pairAt g i := by
  ext
  · rw [re_mul]
    exact (coefZ_mulK_even f g hi).trans (by simp only [pairAt]; ring)
  · rw [im_mul]
    exact (coefZ_mulK_odd f g hi).trans (by simp only [pairAt]; ring)

theorem coefZ_mulD {i : Nat} (hi : i < 256) :
    coefZ (ringQ .dilithium) (mulD f g) i = coefZ (ringQ .dilithium) f i * coefZ (ringQ .dilithium) g i := by
  rw [coefZ, coef_mulD f g hi]
  exact (ZMod.natCast_mod _ _).trans (Nat.cast_mul _ _)

theorem pairAt_nttK_negacyclicPoly {i : Nat} (hi : i < 128) :
    pairAt (nttK (negacyclicPoly (ringQ .kyber) f g)) i = pairAt (mulK (nttK f) (nttK g)) i := by
  rw [pairAt_mulK _ _ hi, pairAt_nttK _ hi, pairAt_nttK _ hi, pairAt_nttK _ hi,
    valueAt_negacyclicPoly _ _ _ (omega_kyber_pow hi)]

theorem coefZ_nttD_negacyclicPoly {i : Nat} (hi : i < 256) :
    coefZ (ringQ .dilithium) (nttD (negacyclicPoly (ringQ .dilithium) f g)) i =
      coefZ (ringQ .dilithium) (mulD (nttD f) (nttD g)) i := by
  rw [coefZ_mulD _ _ hi, coefZ_nttD_eq_valueAt _ hi, coefZ_nttD_eq_valueAt _ hi, coefZ_nttD_eq_valueAt _ hi,
    valueAt_negacyclicPoly _ _ _ (nodeRoot_dilithium_pow hi)]

/-- The transform of the negacyclic product. -/
theorem nttRing_negacyclicPoly :
    nttRing rg (negacyclicPoly (ringQ rg) f g) = mulRing rg (nttRing rg f) (nttRing rg g) := by
  refine poly_eq_of_coefZ_eq (canon_nttRing rg _) (canon_mulRing rg _ _) fun i hi => ?_
  cases rg with
  | kyber =>
    obtain ⟨m, rfl | rfl⟩ := Nat.even_or_odd' i
    · exact congrArg re (pairAt_nttK_negacyclicPoly f g (i := m) (by omega))
    · exact congrArg im (pairAt_nttK_negacyclicPoly f g (i := m) (by omega))
  | dilithium => exact coefZ_nttD_negacyclicPoly f g hi

/-- Settles O43: the product of the transforms is the transform of the negacyclic product, which the inverse transform
gives back. -/
theorem nttProductIsNegacyclic : Obligations.NttProductIsNegacyclic := by
  intro rg f g _ _ k hk
  rw [← nttRing_negacyclicPoly, inttRing_nttRing (canon_negacyclicPoly rg f g), toNat_coef_negacyclicPoly rg f g hk]

end Sys2Proof.Machine
end

section
/-! The centered-binomial sampler (R270, R271): the bits of its input, their counts, and the coefficients made of
them. -/

namespace Sys2Proof.Machine

variable {s : State} {rd : PReg} {eta : Eta}

/-- The bit k of the stream that CBD reads from the buffer (R270). -/
def bufferBit (m : Memory) (a k : Nat) : Bool := (m.byte (a + k / 8)).getLsbD (k % 8)

/-- How many of the n bits from bit k on are ones (R270). -/
def onesFrom (m : Memory) (a k n : Nat) : Nat := ((List.range n).filter fun j => bufferBit m a (k + j)).length

theorem onesFrom_le (m : Memory) (a k n : Nat) : onesFrom m a k n ≤ n :=
  (List.length_filter_le _ _).trans_eq List.length_range

/-- A bit of the sequence read at a is that bit of the buffer's byte (R87, R270). -/
theorem streamBit_read (m : Memory) (a : Nat) {len k : Nat} (hk : k < 8 * len) :
    streamBit (m.read a len) k = (bufferBit m a k).toNat := by
  have hbyte : k / 8 < (m.read a len).length := by rw [read_length]; omega
  rw [streamBit, List.getD_eq_getElem _ _ hbyte, read_getElem]
  exact (Nat.toNat_testBit _ _).symm

/-- A sum of bits counts the ones. -/
theorem sum_map_toNat_eq_length_filter {α : Type} (p : α → Bool) (l : List α) :
    (l.map fun j => (p j).toNat).sum = (l.filter p).length := by
  induction l with
  | nil => rfl
  | cons j l ih =>
    rw [List.map_cons, List.sum_cons, ih]
    cases hj : p j with
    | false => simp [hj]
    | true => simp [hj, Nat.add_comm]

/-- The sum of R270 over bits that were read is the number of ones among them. -/
theorem bitSum_read (m : Memory) (a : Nat) {len k n : Nat} (hk : k + n ≤ 8 * len) :
    bitSum (m.read a len) k n = onesFrom m a k n := by
  have hbits : ∀ j ∈ List.range n, streamBit (m.read a len) (k + j) = (bufferBit m a (k + j)).toNat := fun j hj =>
    streamBit_read m a (by have := List.mem_range.1 hj; omega)
  rw [bitSum, List.map_congr_left hbits, sum_map_toNat_eq_length_filter, onesFrom]

/-- R270 over the 64 n bytes of R271: the two groups of coefficient i lie inside what was read. -/
theorem coef_cbdPoly_read (m : Memory) (a n : Nat) {i : Nat} (hi : i < 256) :
    ((coef (cbdPoly n (m.read a (64 * n))) i).toNat : Int) =
      ((onesFrom m a (2 * i * n) n : Int) - onesFrom m a (2 * i * n + n) n) % 3329 := by
  have hgroups : 2 * i * n + n + n ≤ 8 * (64 * n) := calc
    2 * i * n + n + n = (2 * i + 2) * n := by ring
    _ ≤ 512 * n := Nat.mul_le_mul_right n (by omega)
    _ = 8 * (64 * n) := by ring
  rw [cbdPoly, coef_mkPoly, if_pos hi, bitSum_read m a (by omega), bitSum_read m a hgroups]
  exact toNat_ofInt_emod (by decide) (by decide) _

/-- R271 in bounds. -/
theorem exec_cbd_in_bounds (hfit : argAddress s + 64 * etaVal eta ≤ s.cfg.bufBytes) :
    exec (.cbd rd eta) s =
      .next (s.writeP rd (cbdPoly (etaVal eta) (s.buf.read (argAddress s) (64 * etaVal eta)))).complete :=
  perform_in_bounds hfit

/-- Settles O49: CBD's equation in bounds, and each coefficient from the counts of its two groups of bits. -/
theorem cbdSamples : Obligations.CbdSamples := by
  intro rd eta s hfit n bit
  refine ⟨_, exec_cbd_in_bounds hfit, complete_writeP_frame s rd _, fun i hi => ?coefficient⟩
  case coefficient =>
    refine ⟨_, _, onesFrom_le s.buf (argAddress s) (2 * i * n) n,
      onesFrom_le s.buf (argAddress s) (2 * i * n + n) n, rfl, rfl, ?_⟩
    rw [readP_complete_writeP, coef_cbdPoly_read _ _ _ hi]

end Sys2Proof.Machine
end

section
/-! The system command (R290). -/

namespace Sys2Proof.Machine

/-- Settles O50: WIPE checks nothing and raises no error, so from every state it completes with its result. -/
theorem wipeZeroizes : Obligations.WipeZeroizes :=
  fun s => perform_ok s _

end Sys2Proof.Machine
end

section
/-! How every command ends (R300, R301, R306): in the completion of a state that it has written its results to, or that
it has only reported an error in. -/

namespace Sys2Proof.Machine

/-- All that running a command can answer. -/
theorem exec_cases (i : Instr) (s : State) :
    (∃ u, exec i s = .next u.complete ∧ BodyFrame i s u) ∨ ∃ e ∈ errorColumn i, exec i s = .next (s.fail e) := by
  obtain ⟨body, hexec, hcolumn, hframe⟩ := exec_body i s
  rw [hexec]
  cases body with
  | ok u => exact .inl ⟨u, rfl, hframe u rfl⟩
  | error e => exact .inr ⟨e, hcolumn e rfl, rfl⟩

/-- R301: success or failure, a command ends in a completion, and CTRL and the configuration are as before. -/
theorem exec_completes (i : Instr) (s : State) :
    ∃ u : State, exec i s = .next u.complete ∧ u.cfg = s.cfg ∧ u.ie = s.ie := by
  obtain ⟨u, h, hframe⟩ | ⟨e, -, h⟩ := exec_cases i s
  · exact ⟨u, h, hframe.cfg, hframe.ie⟩
  · exact ⟨s.report e, h, rfl, rfl⟩

/-- Settles O11: results keep ERR and ERRCODE by the frame of the command's body, and a failure is the report alone. -/
theorem commandsCompleteOrOnlyReport : Obligations.CommandsCompleteOrOnlyReport := by
  intro i s
  obtain ⟨u, h, hframe⟩ | ⟨e, he, h⟩ := exec_cases i s
  · exact ⟨_, h, rfl, rfl, rfl, .inl ⟨hframe.err, hframe.errcode⟩⟩
  · exact ⟨_, h, rfl, rfl, rfl, .inr ⟨e, he, fail_eq e s⟩⟩

end Sys2Proof.Machine
end

section
/-! Every step answers a next state with the same configuration (R15, R300, R313, R314). -/

namespace Sys2Proof.Machine

variable {s : State}

/-- R119, R301: the word in flight completes, whether it decodes or not. -/
theorem coreStep_of_busy (busy : s.busy = true) : ∃ u : State, coreStep s = .next u.complete ∧ u.cfg = s.cfg := by
  rw [coreStep, if_pos busy]
  obtain ⟨i, -, h⟩ | ⟨-, h⟩ := performCommand_cases s
  · obtain ⟨u, hexec, hcfg, -⟩ := exec_completes i s
    exact ⟨u, h.trans hexec, hcfg⟩
  · exact ⟨s.report .illegal, h, rfl⟩

theorem coreStep_answers (s : State) : ∃ t, coreStep s = .next t ∧ t.cfg = s.cfg := by
  cases hbusy : s.busy with
  | false => exact ⟨s, coreStep_of_idle hbusy, rfl⟩
  | true =>
    obtain ⟨u, h, hcfg⟩ := coreStep_of_busy hbusy
    exact ⟨u.complete, h, hcfg⟩

theorem writeCtrl_of_srst {v : Word} (srst : v.getLsbD 1 = true) : s.writeCtrl v = s.blockReset := if_pos srst

theorem writeCtrl_of_no_srst {v : Word} (noSrst : v.getLsbD 1 = false) : s.writeCtrl v = { s with ie := v.getLsbD 0 } :=
  if_neg (Bool.eq_false_iff.1 noSrst)

@[simp] theorem writeCtrl_cfg (v : Word) (s : State) : (s.writeCtrl v).cfg = s.cfg := by
  unfold State.writeCtrl
  split <;> rfl

/-- R51: no target of the window is the configuration. -/
@[simp] theorem writeTarget_cfg (tg : Target) (size : Nat) (v : Word) (s : State) :
    (writeTarget tg size v s).cfg = s.cfg := by
  cases tg with
  | ctrl => exact writeCtrl_cfg v s
  | _ => rfl

theorem hostStep_cfg (a : Access) (s : State) : (hostStep a s).cfg = s.cfg := by
  obtain ⟨r, h⟩ | ⟨-, r, n, h⟩ | ⟨addr, size, v, off, -, -, -, -, h⟩ := hostStep_cases a s <;> rw [h]
  case inr.inr => exact writeTarget_cfg _ size v s
  all_goals rfl

/-- Settles O9: the core's step answers, and the other steps are next states as they stand. -/
theorem everyStepAnswersNextState : Obligations.EveryStepAnswersNextState := by
  intro s
  obtain ⟨-, h⟩ | ⟨rest, -, h⟩ | ⟨a, rest, -, h⟩ | ⟨rest, -, h⟩ := step_cases s <;> rw [h]
  · exact coreStep_answers s
  · exact coreStep_answers { s with env := rest }
  · exact ⟨_, rfl, hostStep_cfg a { s with env := rest }⟩
  · exact ⟨_, rfl, rfl⟩

end Sys2Proof.Machine
end

section
/-! How a flight ends (R300, R343): of the host's accesses, only the write of SRST to CTRL ends one (R350). -/

namespace Sys2Proof.Machine

variable {s t : State}

theorem target_ctrl (c : Config) : target c 4 = .ctrl := rfl

theorem target_status (c : Config) : target c 8 = .status := rfl

/-- R80: an offset in the window gives its bus address back. -/
theorem addr_of_windowOffset {c : Config} {addr off : Nat} (h : windowOffset c addr = some off) :
    addr = c.coreBase + off := by
  unfold windowOffset at h
  split at h
  · have := Option.some.inj h
    omega
  · cases h

/-- R350: a host access leaves the command in flight alone, or it is the write of SRST to CTRL, which resets. -/
theorem hostStep_of_busy (busy : s.busy = true) (a : Access) :
    ((hostStep a s).busy = true ∧ (hostStep a s).cur = s.cur) ∨
      ∃ v, a = .write (s.cfg.coreBase + 4) 4 v ∧ v.getLsbD 1 = true ∧
        hostStep a s = { s.blockReset with resp := some .ack } := by
  obtain ⟨r, h⟩ | ⟨-, r, n, h⟩ | ⟨addr, size, v, off, rfl, hwindow, hok, hallowed, h⟩ := hostStep_cases a s <;> rw [h]
  case inl | inr.inl => exact .inl ⟨busy, rfl⟩
  case inr.inr =>
    have hoff : off = 4 ∨ off = 8 := by simpa using (writeAllowed_target _ _).1 (hallowed busy)
    have hsize : size = 4 := by
      obtain ⟨-, hsize, -⟩ | ⟨hlow, -⟩ := (accessOk_iff off size).1 hok <;> omega
    rw [addr_of_windowOffset hwindow, hsize]
    rcases hoff with rfl | rfl
    · rw [target_ctrl, writeTarget]
      cases hv : v.getLsbD 1 with
      | false => rw [writeCtrl_of_no_srst hv]; exact .inl ⟨busy, rfl⟩
      | true => exact .inr ⟨v, rfl, hv, by rw [writeCtrl_of_srst hv]⟩
    · rw [target_status, writeTarget]
      exact .inl ⟨busy, rfl⟩

theorem completed_of_coreStep (busy : s.busy = true) (hstep : coreStep s = .next t) :
    t.busy = false ∧ t.done = true ∧ t.cur = 0 := by
  obtain ⟨u, hcore, -⟩ := coreStep_of_busy busy
  cases hcore.symm.trans hstep
  exact ⟨rfl, rfl, rfl⟩

/-- Settles O10: a step of the core completes the flight, and any other leaves it or is one of the two resets. -/
theorem flightEndsByCompletionOrReset : Obligations.FlightEndsByCompletionOrReset := by
  intro s t busy hstep
  obtain ⟨henv, h⟩ | ⟨rest, henv, h⟩ | ⟨a, rest, henv, h⟩ | ⟨rest, henv, h⟩ := step_cases s <;> rw [h] at hstep
  · exact .inr (.inl ⟨.inl henv, completed_of_coreStep busy hstep⟩)
  · exact .inr (.inl ⟨.inr ⟨rest, henv⟩, completed_of_coreStep (s := { s with env := rest }) busy hstep⟩)
  · cases hstep
    obtain hflight | ⟨v, rfl, srst, hreset⟩ := hostStep_of_busy (s := { s with env := rest }) busy a
    · exact .inl hflight
    · exact .inr (.inr ⟨.inr ⟨v, rest, henv, srst⟩, by rw [hreset]; rfl⟩)
  · cases hstep
    exact .inr (.inr ⟨.inl ⟨rest, henv⟩, rfl⟩)

end Sys2Proof.Machine
end

section
/-! The flags as the host sees them: the interrupt output after each operation on IE and DONE (R49, R309), and the writes
to STATUS and CMD (R90, R303). -/

namespace Sys2Proof.Machine

variable {s : State}

@[simp] theorem irq_complete (s : State) : irq s.complete = s.ie := Bool.and_true _

@[simp] theorem irq_accept (w : Word) (s : State) : irq (s.accept w) = false := Bool.and_false _

@[simp] theorem irq_clearStatus (v : Word) (s : State) : irq (s.clearStatus v) = (irq s && !v.getLsbD 1) :=
  (Bool.and_assoc ..).symm

@[simp] theorem irq_blockReset (s : State) : irq s.blockReset = false := rfl

/-- R41, R342: the reset of SRST wins over the IE of the same write. -/
@[simp] theorem irq_writeCtrl (v : Word) (s : State) :
    irq (s.writeCtrl v) = (!v.getLsbD 1 && v.getLsbD 0 && s.done) := by
  cases hv : v.getLsbD 1 with
  | false => rw [writeCtrl_of_no_srst hv, irq, Bool.not_false, Bool.true_and]
  | true => rw [writeCtrl_of_srst hv, irq_blockReset, Bool.not_true, Bool.false_and, Bool.false_and]

/-- Settles O59: the interrupt output after each operation, where a command is a completion that keeps IE. -/
theorem irqFollowsDoneAndEnable : Obligations.IrqFollowsDoneAndEnable := by
  intro i s t w v
  refine ⟨fun h => ?completion, irq_accept w s, fun hdone => ?clearDone, fun hie hsrst => ?setIe, fun hie => ?clearIe,
    irq_blockReset s⟩
  case completion =>
    obtain ⟨u, hexec, -, hie⟩ := exec_completes i s
    cases hexec.symm.trans h
    rw [irq_complete, hie]
  case clearDone => rw [irq_clearStatus, hdone, Bool.not_true, Bool.and_false]
  case setIe => rw [irq_writeCtrl, hsrst, hie, Bool.not_false, Bool.true_and, Bool.true_and]
  case clearIe => rw [irq_writeCtrl, hie, Bool.and_false, Bool.false_and]

/-- R350: STATUS is written alike, busy or not. -/
theorem hostStep_write_status (s : State) (v : Word) :
    hostStep (.write (s.cfg.coreBase + 8) 4 v) s = { s.clearStatus v with resp := some .ack } := by
  rw [hostStep_write s 8 4 v (by decide) rfl, if_neg (by simp), target_status, writeTarget]

theorem hostStep_write_cmd (idle : s.busy = false) (v : Word) :
    hostStep (.write (s.cfg.coreBase + 0xC) 4 v) s = { s.accept v with resp := some .ack } :=
  hostStep_write_control idle v (by decide) rfl

/-- Settles O53: the two writes are `State.clearStatus` and `State.accept`. -/
theorem statusAndCmdWrites : Obligations.StatusAndCmdWrites :=
  fun s v => ⟨hostStep_write_status s v, fun idle => hostStep_write_cmd idle v⟩

end Sys2Proof.Machine
end

section
/-! The host port of a busy block (R350): the allowed accesses are performed, the others set HZ. -/

namespace Sys2Proof.Machine

variable {s : State} {off size : Nat}

/-- R350: the reads that are performed alike, busy or not. -/
theorem hostStep_read_of_allowed (hallowed : off ∈ [0x0, 0x4, 0x8, 0xC]) (hoff : off < 65536)
    (hok : accessOk off size = true) :
    hostStep (.read (s.cfg.coreBase + off) size) s =
      { s with resp := some (.data (readTarget (target s.cfg off) size s)) } := by
  rw [hostStep_read s off size hoff hok, if_neg fun h => h.2 hallowed]

/-- R350: the writes that are performed alike, busy or not. -/
theorem hostStep_write_of_allowed (hallowed : off ∈ [0x4, 0x8]) (v : Word) (hoff : off < 65536)
    (hok : accessOk off size = true) :
    hostStep (.write (s.cfg.coreBase + off) size v) s =
      { writeTarget (target s.cfg off) size v s with resp := some .ack } := by
  rw [hostStep_write s off size v hoff hok, if_neg fun h => h.2 hallowed]

theorem hostStep_read_of_disallowed (busy : s.busy = true) (hdisallowed : off ∉ [0x0, 0x4, 0x8, 0xC])
    (hoff : off < 65536) (hok : accessOk off size = true) :
    hostStep (.read (s.cfg.coreBase + off) size) s =
      { s.setHz with resp := some (.data (freeData size s)), freeCount := s.freeCount + 1 } := by
  rw [hostStep_read s off size hoff hok, if_pos ⟨busy, hdisallowed⟩]

theorem hostStep_write_of_disallowed (busy : s.busy = true) (hdisallowed : off ∉ [0x4, 0x8]) (v : Word)
    (hoff : off < 65536) (hok : accessOk off size = true) :
    hostStep (.write (s.cfg.coreBase + off) size v) s = { s.setHz with resp := some .ack } := by
  rw [hostStep_write s off size v hoff hok, if_pos ⟨busy, hdisallowed⟩]

/-- Settles O52: the rules that an access breaks are `accessOk`'s, and each of the other accesses has its equation, that
of an allowed or that of a disallowed offset. -/
theorem busyAccessesAreDroppedAndFlagged : Obligations.BusyAccessesAreDroppedAndFlagged := by
  intro s off size v busy hoff reading writing wellFormed
  refine ⟨fun hbroken => ?malformed, fun hwf => ?performed⟩
  case malformed =>
    exact hostStep_malformed s off size v hoff (Bool.eq_false_iff.2 fun hok => hbroken ((accessOk_iff off size).1 hok))
  case performed =>
    have hok : accessOk off size = true := (accessOk_iff off size).2 hwf
    refine ⟨?id, ?ctrl, ?status, ?cmd, fun hdisallowed => ⟨_, _, hostStep_read_of_disallowed busy hdisallowed hoff hok⟩,
      ?setCtrl, ?setStatus, fun hdisallowed => hostStep_write_of_disallowed busy hdisallowed v hoff hok⟩
    case setCtrl | setStatus => rintro rfl; exact hostStep_write_of_allowed (by decide) v hoff hok
    all_goals rintro rfl; exact hostStep_read_of_allowed (by decide) hoff hok

end Sys2Proof.Machine
end

section
/-! Both resets as whole states (R341 to R343): the write of SRST to CTRL and the power-on event. -/

namespace Sys2Proof.Machine

/-- R350: CTRL is written alike, busy or not. -/
theorem hostStep_write_ctrl (s : State) (v : Word) :
    hostStep (.write (s.cfg.coreBase + 4) 4 v) s = { s.writeCtrl v with resp := some .ack } :=
  hostStep_write_of_allowed (by decide) v (by decide) rfl

/-- Settles O54: a write to CTRL is `State.writeCtrl`, by SRST a reset or a store of IE, and the power-on reset is the
same `State.blockReset`. -/
theorem softResetWinsAndAborts : Obligations.SoftResetWinsAndAborts := by
  intro s v rest
  refine ⟨fun srst => ?softReset, ?powerOn, fun noSrst => ?storeIe⟩
  case softReset => rw [hostStep_write_ctrl, writeCtrl_of_srst srst, State.blockReset]
  case powerOn => exact step_of_env_powerOnReset (s := { s with env := .powerOnReset :: rest }) rfl
  case storeIe => rw [hostStep_write_ctrl, writeCtrl_of_no_srst noSrst]

end Sys2Proof.Machine
end
